-- ==== Sys2Proof/Word.lean ====
section
/-! DEFINITION. The word types of the NB4216 (R1): a memory word, a byte lane, a word address. -/

namespace Sys2Proof

/-- A 16-bit memory word (R1). -/
abbrev Word := BitVec 16

/-- One byte lane of a word, or one byte of the management link (R1, R135). -/
abbrev Byte := BitVec 8

/-- A word address on the 19-bit memory address space (R1). -/
abbrev Addr := BitVec 19

end Sys2Proof
end

