-- ==== Sys2Proof/Syntax.lean ====
section
/-! DEFINITION. The commands of the block: one constructor per row of spec/opcode_table.json, with operands. The table gives
no operands; those here are what each event carries by the rule the row names. -/

namespace Sys2Proof

/-- Levels of the strap pins LOC1:0 and MT1:0 (R15, R103, R184). -/
structure Straps where
  loc : BitVec 2
  mt : BitVec 2
  deriving DecidableEq, Repr

/-- The byte lanes an access enables (R1, R63). -/
structure Lanes where
  low : Bool
  high : Bool
  deriving DecidableEq, Repr

/-- A command. `flaw` on a completion is the memory's own failure: `none` for a sound cycle, `some w` when a read answers `w`
instead of the stored word, or when a write leaves `w` in its lanes instead of the driven word (log 7). The first operand of a
request is its tag; the further ones are its parameters as they stand in their bytes (R137, R182). -/
inductive Instr where
  | powerUp (straps : Straps) (pfw reset : Bool)
  | tick
  | settleEnd
  | deadlineExpiry (d : Fin 4)
  | resetAssert (straps : Straps)
  | resetRelease (straps : Straps)
  | pfwAssert (straps : Straps)
  | pfwRelease (straps : Straps)
  | hostRead (addr : Addr) (lanes : Lanes) (alt : Bool)
  | hostWrite (addr : Addr) (lanes : Lanes) (alt : Bool) (data : Word)
  | hostCycleEnd
  | hostAccessComplete (flaw : Option Word)
  | memoryAccessComplete (flaw : Option Word)
  | copyComplete (flaw : Option Word)
  | epochWriteComplete (flaw : Option Word)
  | retireComplete (flaw : Option Word)
  | restoreSlotComplete (flaw : Option Word)
  | loadComplete (flaw : Option Word)
  | scanSlotJudged (flaw : Option Word)
  | recoveryRestoreComplete (flaw : Option Word)
  | installTagsComplete (flaw : Option Word)
  | installCopyComplete (flaw : Option Word)
  | installEpochsComplete (flaw : Option Word)
  | frameBegin
  | frameEnd (bytes : List Byte) (extraBits : Nat)
  | nop (tag : Byte)
  | getStatus (tag : Byte)
  | getDomain (tag d p : Byte)
  | getSlot (tag n : Byte)
  | getRegion (tag r : Byte)
  | getStagedRegion (tag idx : Byte)
  | getStagedDomain (tag idx : Byte)
  | getStagedLog (tag idx : Byte)
  | stageLoad (tag : Byte)
  | stageRegion (tag r : Byte) (base : BitVec 24) (flags size : Byte) (count : Word)
  | stageDomain (tag d flags quota : Byte) (deadline : Word) (commit : BitVec 24)
  | stageLog (tag : Byte) (len : BitVec 24) (verify : Byte)
  | install (tag : Byte)
  | abort (tag d : Byte)
  | resume (tag d : Byte)
  | setModeBypass (tag : Byte)
  | setModeGuarding (tag : Byte)
  | takeEvent (tag : Byte)
  | setEvents (tag : Byte) (mask : Word)
  | restart (tag : Byte)
  | supplyLoss
  deriving DecidableEq, Repr

end Sys2Proof
end

