-- ==== Sys2Proof/Config.lean ====
section
/-! DEFINITION. The free value of the model: a choice the manual leaves open. -/

namespace Sys2Proof

/-- Which of the claims that reach an idle Memory Port together is taken first. R107: "Which of the two is taken first is
not fixed by the device". The n-th such decision takes the claim number `arrivalPick n` modulo their number. Free value: no
body, so no proof can rest on one order (log 12). -/
opaque Config.arrivalPick : Nat → Nat

end Sys2Proof
end

