-- ==== Sys2Proof/Machine/State.lean ====
section
/-! DEFINITION. The state of the NB4216 as plain data, and the state after power-up. -/

namespace Sys2Proof.Machine

/-! ### Layouts (R2, R9, R154) -/

/-- How host writes to a region are treated (R2). -/
inductive RegionKind where
  | journal
  | once
  | fixed
  deriving DecidableEq, Repr

/-- An entry of the Region Table (R2). -/
structure RegionEntry where
  active : Bool
  base : Addr
  size : Nat
  count : Nat
  kind : RegionKind
  domain : Fin 4
  deriving DecidableEq, Repr

/-- The check on a new commit word value (R11). -/
inductive GuardMode where
  | any
  | advance
  | increase
  | change
  deriving DecidableEq, Repr

/-- The configuration of a domain (R9). -/
structure DomainCfg where
  enabled : Bool
  commitAddr : Addr
  guardMode : GuardMode
  deadline : Word
  quota : Nat
  fence : Bool
  strict : Bool
  deriving DecidableEq, Repr

/-- A complete layout: regions, domains, log length and verify flag (R154). -/
structure Layout where
  regions : Vector RegionEntry 16
  domains : Vector DomainCfg 4
  logLength : Nat
  verify : Bool
  deriving DecidableEq, Repr

/-- The cleared layout: the staging after power-up (R2, R9, R134), and the active tables with no valid copy (log 20). -/
def Layout.cleared : Layout where
  regions := Vector.replicate 16
    { active := false, base := 0, size := 1, count := 1, kind := .journal, domain := 0 }
  domains := Vector.replicate 4
    { enabled := false, commitAddr := 0, guardMode := .any, deadline := 0, quota := 1, fence := false, strict := false }
  logLength := 0
  verify := false

/-- Largest record size, slot stride and pool size of a layout (R47). -/
structure Geometry where
  wmax : Nat
  stride : Nat
  slots : Nat
  deriving DecidableEq, Repr

/-- A configuration copy (R44). -/
inductive CopyName where
  | a
  | b
  deriving DecidableEq, Repr

/-! ### Events (R168, R169) -/

/-- The cause of an abort (R32). -/
inductive Cause where
  | deadline
  | guard
  | quota
  | logFull
  | stray
  | media
  | requested
  deriving DecidableEq, Repr

/-- The reason of a blocked or dropped write (R63). -/
inductive Reason where
  | fixed
  | onceUsed
  | altWrite
  | logArea
  | rolling
  | fenced
  | failed
  | dropped
  deriving DecidableEq, Repr

/-- The stream that found a media fault (R95). -/
inductive FaultPhase where
  | copy
  | retire
  | restore
  | commit
  | install
  | recovery
  deriving DecidableEq, Repr

/-- The kind of an entry into STARTING (R118). -/
inductive StartKind where
  | powerUp
  | reset
  | restart
  | warm
  deriving DecidableEq, Repr

/-- The six counts of a recovery (R118). -/
structure Counts where
  restored : Nat
  discarded : Nat
  torn : Nat
  stale : Nat
  bad : Nat
  stranded : Nat
  deriving DecidableEq, Repr

/-- The install step a read-back failed in (R164). -/
inductive InstallDetail where
  | tags
  | copy
  deriving DecidableEq, Repr

/-- An event with the fields of its kind (R169). -/
inductive Event where
  | committed (d : Fin 4) (epoch : Word) (members : Nat)
  | aborted (d : Fin 4) (epoch : Word) (cause : Cause) (restored : Nat)
  | writeBlocked (reason : Reason) (addr : Addr) (region : Option (Fin 16)) (domain : Option (Fin 4)) (count : Nat)
  | mediaFault (phase : FaultPhase) (slot : Option Nat) (addr : Addr)
  | domainFailed (d : Fin 4) (epoch : Word)
  | recovered (kind : StartKind) (counts : Counts)
  | unconfigured (kind : StartKind)
  | installed (sequence : Word)
  | installFailed (detail : InstallDetail)
  deriving DecidableEq, Repr

/-- An event record: the event and its lost flag (R168). -/
structure EventRec where
  event : Event
  lost : Bool
  deriving DecidableEq, Repr

/-! ### Domains (R18) and slots (R51) -/

/-- The update state of a domain (R18). -/
inductive UpdateState where
  | disabled
  | idle
  | opened
  | committing
  | rolling
  | fenced
  | failed
  deriving DecidableEq, Repr

/-- Where a restore of one slot stands: the read of image word k, the write of record word k, the tag write (R87, R124). -/
inductive RestorePos where
  | read (k : Nat)
  | word (k : Nat) (w : Word)
  | tag
  deriving DecidableEq, Repr

/-- A restore stream (R85); its restore list is the domain's. `back` says that the next access is the read-back. -/
structure RestoreStream where
  epoch : Word
  cause : Cause
  slot : Option Nat
  pos : RestorePos
  back : Bool
  restored : Nat
  deriving DecidableEq, Repr

/-- A domain's runtime record (R18) and its restore stream (R85). A timer of 0 is stopped. -/
structure Runtime where
  state : UpdateState
  committed : Word
  members : List Nat
  backlog : Nat
  timer : Nat
  restoreList : List Nat
  stream : Option RestoreStream
  deriving DecidableEq, Repr

/-- A discarded runtime record (R118). -/
def Runtime.discarded : Runtime where
  state := .disabled
  committed := 0
  members := []
  backlog := 0
  timer := 0
  restoreList := []
  stream := none

/-- The state of a slot (R51). -/
inductive SlotState where
  | free
  | copying
  | active
  | retiring
  | restoring
  | stranded
  | bad
  deriving DecidableEq, Repr

/-- A pool entry (R51). In FREE and BAD the fields beside the state are 0 (R144). -/
structure PoolEntry where
  state : SlotState
  domain : Fin 4
  epoch : Word
  region : Fin 16
  record : Nat
  deriving DecidableEq, Repr

/-- An entry of the Slot Index (R55). -/
structure IndexEntry where
  region : Fin 16
  record : Nat
  slot : Nat
  deriving DecidableEq, Repr

/-! ### Streams -/

/-- Where a copy stands: the read of record word k, the write of image word k, then the header words and the tag (R57). -/
inductive CopyPos where
  | read (k : Nat)
  | image (k : Nat) (w : Word)
  | epoch
  | locator
  | check
  | tag
  deriving DecidableEq, Repr

/-- The copy stream (R57). `sum` is the running sum of the image words for the check (R50). -/
structure CopyStream where
  slot : Nat
  pos : CopyPos
  back : Bool
  sum : Word
  deriving DecidableEq, Repr

/-- The commit stream's epoch write, or its read-back (R30). -/
structure CommitStream where
  domain : Fin 4
  back : Bool
  deriving DecidableEq, Repr

/-- The mode of the device (R116). -/
inductive Mode where
  | starting
  | unconfigured
  | guarding
  | bypass
  | installing
  | frozen
  deriving DecidableEq, Repr

/-- The step of an install with its position (R159). -/
inductive InstallStep where
  | tags (i : Nat)
  | copy (k : Nat)
  | epochs (rest : List (Fin 4))
  deriving DecidableEq, Repr

/-- The install stream (R159). -/
structure InstallStream where
  returnMode : Mode
  target : CopyName
  sequence : Word
  step : InstallStep
  back : Bool
  epochs : Vector Word 4
  deriving DecidableEq, Repr

/-! ### Start-up Controller (R118) -/

/-- The phase of STARTING (R116). -/
inductive Phase where
  | settle
  | load
  | scan
  | restore
  deriving DecidableEq, Repr

/-- A slot on the recovery list (R118). -/
structure RecItem where
  slot : Nat
  domain : Fin 4
  epoch : Word
  region : Fin 16
  record : Nat
  size : Nat
  deriving DecidableEq, Repr

/-- The outcome of a judged slot (R118); `listed` until RESTORE settles it. -/
inductive SlotOutcome where
  | free
  | bad
  | stranded (item : RecItem)
  | listed
  deriving DecidableEq, Repr

/-- The copy LOAD chose: its name, install sequence and layout (R118). -/
structure Chosen where
  copy : CopyName
  sequence : Word
  layout : Layout
  deriving DecidableEq, Repr

/-- The count a cleared slot is added to (R122). -/
inductive Judgement where
  | stale
  | torn
  | discarded
  deriving DecidableEq, Repr

/-- Where the judging of one slot stands, with the words read so far (R122). -/
inductive ScanPos where
  | tag
  | epoch (d : Fin 4)
  | locator (d : Fin 4) (epoch : Word)
  | check (d : Fin 4) (epoch loc : Word)
  | image (d : Fin 4) (epoch loc chk : Word) (k : Nat) (sum : Word)
  | clear (j : Judgement)
  deriving DecidableEq, Repr

/-- Where the recovery stands between two word accesses (R112). `copies` holds the words LOAD has read so far; `epochs` the
domains whose epoch words are still to be read. -/
inductive RecPos where
  | idle
  | copies (words : List Word)
  | epochs (rest : List (Fin 4))
  | scan (pos : ScanPos) (back : Bool)
  | restore (item : RecItem) (pos : RestorePos) (back : Bool)
  deriving DecidableEq, Repr

/-- The recovery record (R118). -/
structure Recovery where
  startKind : StartKind
  phase : Phase
  settle : Nat
  chosen : Option Chosen
  epochs : Vector Word 4
  scanPos : Nat
  list : List RecItem
  outcomes : List SlotOutcome
  counts : Counts
  restoredDomains : Vector Bool 4
  failedDomains : Vector Bool 4
  pos : RecPos
  deriving DecidableEq, Repr

/-- A recovery record cleared at an entry of the given kind into the given phase (R118). -/
def Recovery.entered (kind : StartKind) (phase : Phase) (restored : Vector Bool 4) : Recovery where
  startKind := kind
  phase := phase
  settle := 0
  chosen := none
  epochs := Vector.replicate 4 0
  scanPos := 0
  list := []
  outcomes := []
  counts := { restored := 0, discarded := 0, torn := 0, stale := 0, bad := 0, stranded := 0 }
  restoredDomains := restored
  failedDomains := Vector.replicate 4 false
  pos := .idle

/-! ### Host Port (R63, R64) -/

/-- A hit of the Match Unit on an active region (R16). -/
structure Hit where
  region : Fin 16
  record : Nat
  offset : Nat
  kind : RegionKind
  domain : Fin 4
  deriving DecidableEq, Repr

/-- The answer of the Match Unit (R16). -/
inductive Classification where
  | uncovered
  | logArea
  | hit (h : Hit)
  deriving DecidableEq, Repr

/-- How a host access is disposed of (R63). -/
inductive Disposition where
  | pass
  | redirect (slot : Nat) (image : Addr)
  | journal
  | block (reason : Reason)
  | drop (reason : Reason)
  | noEffect
  | ended
  deriving DecidableEq, Repr

/-- One host bus cycle as its lines stand (R63). -/
structure BusCycle where
  write : Bool
  addr : Addr
  lanes : Lanes
  alt : Bool
  data : Word
  deriving DecidableEq, Repr

/-- The state of the Host Port (R64). -/
inductive PortState where
  | vacant
  | held
  | deciding
  | atMemory
  | closing
  deriving DecidableEq, Repr

/-- What a write in DECIDING waits for (R24, R25, R29, R30). -/
inductive WriteStage where
  | none
  | slot
  | copy
  | backlog
  | store
  | commitStore
  | epochWrite
  deriving DecidableEq, Repr

/-- The Host Port with its one access record (R63, R64), the early end and the new cycle of R65. -/
structure HostPort where
  state : PortState
  cycle : BusCycle
  cls : Option Classification
  disp : Option Disposition
  stage : WriteStage
  early : Bool
  waiting : Option BusCycle
  deriving DecidableEq, Repr

/-! ### Memory Port (R105) -/

/-- A claimant of the Memory Port (R106). -/
inductive Claimant where
  | host
  | copy
  | commit
  | restore (d : Fin 4)
  | install
  | retire
  | recovery
  deriving DecidableEq, Repr

/-- A memory access in progress (R103). `orphan`: its claimant was discarded after it was begun (R104). -/
structure Access where
  claimant : Claimant
  write : Bool
  addr : Addr
  lanes : Lanes
  data : Word
  orphan : Bool
  deriving DecidableEq, Repr

/-- The state of the Memory Port (R105). Pointer 0 to 3 is a domain, 4 is INSTALL. -/
structure MemPort where
  access : Option Access
  stopped : Bool
  boost : Bool
  pointer : Fin 5
  deriving DecidableEq, Repr

/-! ### Management Link (R134) -/

/-- The result code of a request (R138). -/
inductive ResultCode where
  | none
  | ok
  | inProgress
  | busy
  | badRequest
  | badLength
  | badIndex
  | badValue
  | notQuiet
  | wrongMode
  | nothingOpen
  | tooLate
  | notFenced
  | empty
  | invalidConfig
  | media
  deriving DecidableEq, Repr

/-- A result record (R138); its data length is the length of `data`. -/
structure ResultRec where
  tag : Byte
  code : Byte
  result : ResultCode
  data : List Byte
  deriving DecidableEq, Repr

/-- The empty record (R134). -/
def ResultRec.empty : ResultRec where
  tag := 0
  code := 0
  result := .none
  data := []

/-- The pending long operation with its tag (R134). RESTART here is R118's "RESTART pending". -/
inductive PendingOp where
  | none
  | install (tag : Byte)
  | restart (tag : Byte)
  deriving DecidableEq, Repr

/-- The Management Link but for the Staging Tables (R134). `ignoring`: SSEL# is low in a frame that R140 ignores. -/
structure Link where
  receiving : Bool
  ignoring : Bool
  received : List Byte
  overflow : Bool
  output : Option (List Byte)
  result : ResultRec
  pendingOp : PendingOp
  deriving DecidableEq, Repr

/-! ### The whole -/

/-- The state of the block, of the memory behind it, and the queue of commands that wait. -/
structure State where
  powered : Bool
  pfwAsserted : Bool
  resetAsserted : Bool
  resetTaken : Bool
  straps : Straps
  loc : BitVec 2
  mt : BitVec 2
  mode : Mode
  recovery : Recovery
  layout : Layout
  activeCopy : Option CopyName
  activeSequence : Word
  geometry : Geometry
  domains : Vector Runtime 4
  pool : List PoolEntry
  freeQueue : List Nat
  slotIndex : List IndexEntry
  retireQueue : List Nat
  copy : Option CopyStream
  commit : Option CommitStream
  retireBack : Bool
  install : Option InstallStream
  port : HostPort
  memPort : MemPort
  events : List EventRec
  mask : BitVec 9
  link : Link
  staging : Layout
  memory : List Host.Cell
  arrivals : Nat
  pending : List Instr
  deriving DecidableEq, Repr

/-- The reasons for which a step could stop with a fault. The manual names no event that stops the part: a media fault is an
effect on the state, and every command answers a next state. There is therefore no constructor, which is safe. -/
inductive Fault where
  deriving DecidableEq, Repr

/-- The reasons for which a step can be refused. -/
inductive Refusal where
  /-- Raised by `exec` for a command that has no meaning yet; no arm raises it now. Safe: it claims nothing. -/
  | notModelled (mnemonic : String)
  deriving DecidableEq, Repr

/-- A vacant Host Port; its record has no meaning and is given as zero (R63, log 33). -/
def HostPort.vacantPort : HostPort where
  state := .vacant
  cycle := { write := false, addr := 0, lanes := { low := false, high := false }, alt := false, data := 0 }
  cls := none
  disp := none
  stage := .none
  early := false
  waiting := none

/-- The link at power-up (R134). -/
def Link.powerUp : Link where
  receiving := false
  ignoring := false
  received := []
  overflow := false
  output := none
  result := .empty
  pendingOp := .none

/-- The machine right after power-up, with every block at its power-up value (R105, R116, R118, R132, R134, R177), the
straps read 00, PFW# and RESET# released (log 19), and the memory with nothing listed (log 1). -/
def State.reset : State where
  powered := true
  pfwAsserted := false
  resetAsserted := false
  resetTaken := false
  straps := { loc := 0, mt := 0 }
  loc := 0
  mt := 0
  mode := .starting
  recovery := .entered .powerUp .settle (Vector.replicate 4 false)
  layout := .cleared
  activeCopy := none
  activeSequence := 0
  geometry := { wmax := 0, stride := 0, slots := 0 }
  domains := Vector.replicate 4 .discarded
  pool := []
  freeQueue := []
  slotIndex := []
  retireQueue := []
  copy := none
  commit := none
  retireBack := false
  install := none
  port := .vacantPort
  memPort := { access := none, stopped := true, boost := false, pointer := 4 }
  events := []
  mask := BitVec.allOnes 9
  link := .powerUp
  staging := .cleared
  memory := []
  arrivals := 0
  pending := []

end Sys2Proof.Machine
end

