-- ==== Sys2Proof/Machine/Ops.lean ====
section
/-! DEFINITION. Named operations: memory by lane and by word, domain and slot updates, recording an event, posting a result. -/

namespace Sys2Proof.Machine

/-! ### Memory: canonical list of (cell, byte); cell 2a is the low lane of word a and cell 2a + 1 the high lane (log 2) -/

/-- What an unlisted byte reads as (log 1). -/
def Memory.unwritten : Byte := 0

/-- Number of cells: two lanes for each of the 0x80000 words (R1). -/
def Memory.cells : Nat := 0x100000

/-- The byte in a cell. -/
def Memory.byteAt : List Host.Cell → Nat → Byte
  | [], _ => Memory.unwritten
  | (k, b) :: rest, c => if c = k then b else if c < k then Memory.unwritten else Memory.byteAt rest c

/-- Puts a byte in a cell, in its place in the list; the value an unlisted cell reads as is not listed. -/
def Memory.setByte : List Host.Cell → Nat → Byte → List Host.Cell
  | [], c, b => if b = Memory.unwritten then [] else [(c, b)]
  | (k, x) :: rest, c, b =>
    if c = k then (if b = Memory.unwritten then rest else (c, b) :: rest)
    else if c < k then (if b = Memory.unwritten then (k, x) :: rest else (c, b) :: (k, x) :: rest)
    else (k, x) :: Memory.setByte rest c b

/-- The list is canonical from cell `lo` on: cells strictly rising, inside the memory, none listed that reads as unlisted. -/
def Memory.wfFrom : Nat → List Host.Cell → Bool
  | _, [] => true
  | lo, (k, b) :: rest => decide (lo ≤ k) && decide (k < Memory.cells) && decide (b ≠ Memory.unwritten) && Memory.wfFrom (k + 1) rest

/-- The memory is in canonical form. -/
def Memory.wf (m : List Host.Cell) : Bool := Memory.wfFrom 0 m

/-- The word at an address: its high lane above its low lane (R1). -/
def Memory.word (m : List Host.Cell) (a : Addr) : Word :=
  Memory.byteAt m (2 * a.toNat + 1) ++ Memory.byteAt m (2 * a.toNat)

/-- The low byte of a word. -/
def lowByte (w : Word) : Byte := w.extractLsb' 0 8

/-- The high byte of a word. -/
def highByte (w : Word) : Byte := w.extractLsb' 8 8

/-- Writes the enabled lanes of a word; a disabled lane keeps its byte (R76, R103). -/
def Memory.setWord (m : List Host.Cell) (a : Addr) (lanes : Lanes) (w : Word) : List Host.Cell :=
  let m1 := if lanes.low then Memory.setByte m (2 * a.toNat) (lowByte w) else m
  if lanes.high then Memory.setByte m1 (2 * a.toNat + 1) (highByte w) else m1

/-- Both lanes: what a stream write enables (R103). -/
def bothLanes : Lanes := { low := true, high := true }

/-- No lane enabled (R76). -/
def noLanes (l : Lanes) : Bool := !l.low && !l.high

/-- A write merged lane by lane with the old value (R12). -/
def mergeLanes (lanes : Lanes) (old new : Word) : Word :=
  (if lanes.high then highByte new else highByte old) ++ (if lanes.low then lowByte new else lowByte old)

/-! ### Domains and slots -/

/-- The runtime record of a domain. -/
def State.dom (s : State) (d : Fin 4) : Runtime := s.domains[d]

/-- Replaces a domain's runtime record. -/
def State.setDom (s : State) (d : Fin 4) (r : Runtime) : State := { s with domains := s.domains.set d r }

/-- The active configuration of a domain. -/
def State.cfg (s : State) (d : Fin 4) : DomainCfg := s.layout.domains[d]

/-- The open epoch: the committed epoch plus one, modulo 65536 (R18). -/
def Runtime.openEpoch (r : Runtime) : Word := r.committed + 1

/-- A FREE pool entry: no domain, epoch, region or record (R51, R144). -/
def PoolEntry.freeEntry : PoolEntry := { state := .free, domain := 0, epoch := 0, region := 0, record := 0 }

/-- A BAD pool entry (R101). -/
def PoolEntry.badEntry : PoolEntry := { PoolEntry.freeEntry with state := .bad }

/-- The pool entry of a slot. -/
def State.slot (s : State) (i : Nat) : PoolEntry := s.pool.getD i .badEntry

/-- Replaces a slot's pool entry. -/
def State.setSlot (s : State) (i : Nat) (e : PoolEntry) : State := { s with pool := s.pool.set i e }

/-- Puts a slot in another state, its other fields kept. -/
def State.setSlotState (s : State) (i : Nat) (st : SlotState) : State := s.setSlot i { s.slot i with state := st }

/-- Puts every slot of a list that is in one state into another. -/
def moveSlots (old new : SlotState) : List Nat → State → State
  | [], s => s
  | i :: rest, s => moveSlots old new rest (if (s.slot i).state = old then s.setSlotState i new else s)

/-- The slot the Slot Index holds for a record (R55). -/
def State.indexed (s : State) (region : Fin 16) (record : Nat) : Option Nat :=
  (s.slotIndex.find? (fun e => decide (e.region = region) && decide (e.record = record))).map (·.slot)

/-- Removes a slot's entry from the Slot Index (R55). -/
def State.unindex (s : State) (i : Nat) : State :=
  { s with slotIndex := s.slotIndex.filter (fun e => decide (e.slot ≠ i)) }

/-- Some slot is in state RETIRING or RESTORING, so a slot can still come free (R24). -/
def State.slotComing (s : State) : Bool :=
  s.pool.any (fun e => decide (e.state = .retiring) || decide (e.state = .restoring))

/-! ### Recording an event (R170 to R172) -/

/-- The bit of an event kind in the enable mask: kind code less one (R182, R183). -/
def Event.maskBit : Event → Nat
  | .committed .. => 0
  | .aborted .. => 1
  | .writeBlocked .. => 2
  | .mediaFault .. => 3
  | .domainFailed .. => 4
  | .recovered .. => 5
  | .unconfigured .. => 6
  | .installed .. => 7
  | .installFailed .. => 8

/-- The record a matching WRITE_BLOCKED makes of the newest record: repeat count up by one, at most 255; none when the
coalescing condition fails (R171). -/
def coalesced (newest : EventRec) (e : Event) : Option EventRec :=
  match newest.event, e with
  | .writeBlocked reason addr region domain count, .writeBlocked reason' _ region' _ _ =>
    if reason = reason' ∧ region = region' ∧ newest.lost = false then
      some { newest with event := .writeBlocked reason addr region domain (min 255 (count + 1)) }
    else none
  | _, _ => none

/-- The queue after a posting that the mask lets through: coalesced, appended, or discarded with the newest record's lost
flag set (R170, R171, R172). -/
def queued (q : List EventRec) (e : Event) : List EventRec :=
  match q.getLast? with
  | none => [{ event := e, lost := false }]
  | some newest =>
    match coalesced newest e with
    | some r => q.dropLast ++ [r]
    | none =>
      if q.length < 16 then q ++ [{ event := e, lost := false }]
      else q.dropLast ++ [{ newest with lost := true }]

/-- The Event Unit takes a posting (R170). -/
def record (e : Event) (s : State) : State :=
  if s.mask.getLsbD e.maskBit then { s with events := queued s.events e } else s

/-! ### Posting a result (R136, R138) -/

/-- Replaces the Result Buffer. -/
def post (tag code : Byte) (result : ResultCode) (data : List Byte) (s : State) : State :=
  { s with link := { s.link with result := { tag := tag, code := code, result := result, data := data } } }

/-- Ends the pending long operation without a result. -/
def clearPending (s : State) : State := { s with link := { s.link with pendingOp := .none } }

/-- The request code of INSTALL (R137). -/
def codeInstall : Byte := 0x14

/-- The request code of RESTART (R137). -/
def codeRestart : Byte := 0x3F

/-! ### The Host Port's end of an access (R64, R65) -/

/-- The Port leaves HELD, DECIDING or AT_MEMORY: CLOSING, or VACANT when the host ended its cycle early (R64, R65). -/
def closePort (s : State) : State :=
  { s with port := { s.port with state := if s.port.early then .vacant else .closing, stage := .none, early := false } }

/-- Sets what the DECIDING write waits for. -/
def setStage (g : WriteStage) (s : State) : State := { s with port := { s.port with stage := g } }

/-- Turns the boost of the retire stream on or off (R110). -/
def setBoost (b : Bool) (s : State) : State := { s with memPort := { s.memPort with boost := b } }

end Sys2Proof.Machine
end

