-- ==== Sys2Proof/Machine/Operands.lean ====
section
/-! DEFINITION. What the words mean: geometry and addresses of the log area, classification, encodings of slots and
configuration copies, validation of a layout. -/

namespace Sys2Proof.Machine

/-- The region indices in ascending order. -/
def regionIndices : List (Fin 16) := [0, 1, 2, 3, 4, 5, 6, 7, 8, 9, 10, 11, 12, 13, 14, 15]

/-- The domains in ascending order. -/
def domainIndices : List (Fin 4) := [0, 1, 2, 3]

/-! ### Geometry (R15, R43, R44, R47) -/

/-- The log start of a LOC strap value (R15). -/
def logStartOf (loc : BitVec 2) : Nat :=
  match loc.toNat with
  | 0 => 0x00000
  | 1 => 0x08000
  | 2 => 0x40000
  | _ => 0x78000

/-- The largest record size among the active regions, 0 when none is active (R47). -/
def Layout.wmax (l : Layout) : Nat :=
  regionIndices.foldl (fun m r => if l.regions[r].active then max m l.regions[r].size else m) 0

/-- Wmax, stride 4 + Wmax, and S = min(128, floor((L - 260) / stride)) (R47); 0 when the formula gives less than 1. -/
def Layout.geometry (l : Layout) : Geometry :=
  { wmax := l.wmax, stride := 4 + l.wmax, slots := min 128 ((l.logLength - 260) / (4 + l.wmax)) }

/-- The domains a layout enables, ascending. -/
def Layout.enabledDomains (l : Layout) : List (Fin 4) := domainIndices.filter (fun d => l.domains[d].enabled)

/-- The log start last sampled. -/
def State.logStart (s : State) : Nat := logStartOf s.loc

/-- Word k of the log area of a log start. -/
def logWord (start k : Nat) : Addr := BitVec.ofNat 19 (start + k)

/-- Word k of slot i of a geometry (R44). -/
def slotWord (start stride i k : Nat) : Addr := logWord start (260 + i * stride + k)

/-- The address of a domain's epoch word (R46). -/
def epochAddr (start : Nat) (d : Fin 4) : Addr := logWord start (256 + d.val)

/-- Word k of slot i of the active layout. -/
def State.slotAddr (s : State) (i k : Nat) : Addr := slotWord s.logStart s.geometry.stride i k

/-- Word k of record r of a region entry: base + size × r + k (R3). -/
def recordWord (e : RegionEntry) (r k : Nat) : Addr := BitVec.ofNat 19 (e.base.toNat + e.size * r + k)

/-! ### Classification (R3, R15, R16) -/

/-- An active region's span contains the address (R3, R8). -/
def RegionEntry.covers (e : RegionEntry) (a : Nat) : Bool :=
  e.active && decide (e.base.toNat ≤ a) && decide (a < e.base.toNat + e.size * e.count)

/-- The log area exists while a valid copy is active, and spans L words from the log start (R15). -/
def State.inLogArea (s : State) (a : Addr) : Bool :=
  s.activeCopy.isSome && decide (s.logStart ≤ a.toNat) && decide (a.toNat < s.logStart + s.layout.logLength)

/-- The hit of an address on a region entry (R3). -/
def hitOf (i : Fin 16) (e : RegionEntry) (a : Addr) : Hit :=
  { region := i, record := (a.toNat - e.base.toNat) / e.size, offset := (a.toNat - e.base.toNat) % e.size,
    kind := e.kind, domain := e.domain }

/-- The Match Unit's answer (R16). -/
def classify (s : State) (a : Addr) : Classification :=
  if s.inLogArea a then .logArea
  else match regionIndices.find? (fun i => s.layout.regions[i].covers a.toNat) with
    | some i => .hit (hitOf i s.layout.regions[i] a)
    | none => .uncovered

/-- The address is the commit word of the domain (R10). -/
def State.isCommitWord (s : State) (d : Fin 4) (a : Addr) : Bool :=
  (s.cfg d).enabled && decide ((s.cfg d).commitAddr = a)

/-! ### Slot words (R178, R179) -/

/-- The live tag of a domain (R178). -/
def liveTag (d : Fin 4) : Word := 0xA600 + BitVec.ofNat 16 d.val

/-- The domain of a live tag; none for a free or corrupt tag (R178). -/
def tagDomain (w : Word) : Option (Fin 4) :=
  if w = 0xA600 then some 0 else if w = 0xA601 then some 1 else if w = 0xA602 then some 2
  else if w = 0xA603 then some 3 else none

/-- The locator word of a record (R178). -/
def locatorWord (region : Fin 16) (record : Nat) : Word := BitVec.ofNat 16 (region.val * 4096 + record % 4096)

/-- The region index of a locator (R178). -/
def locatorRegion (w : Word) : Fin 16 := Fin.ofNat 16 (w.toNat / 4096)

/-- The record number of a locator (R178). -/
def locatorRecord (w : Word) : Nat := w.toNat % 4096

/-- The check word from the epoch, the locator and the sum of the image words: the inverted sum (R179). -/
def checkWord (epoch locator sum : Word) : Word := ~~~ (epoch + locator + sum)

/-! ### Configuration copies (R180, R181) -/

/-- The encoding of a region kind (R180). -/
def RegionKind.code : RegionKind → Nat
  | .journal => 0
  | .once => 1
  | .fixed => 2

/-- The kind of a 2-bit code; the value 3 names none (R180). -/
def RegionKind.ofCode : Nat → Option RegionKind
  | 0 => some .journal
  | 1 => some .once
  | 2 => some .fixed
  | _ => none

/-- The encoding of a guard mode (R180). -/
def GuardMode.code : GuardMode → Nat
  | .any => 0
  | .advance => 1
  | .increase => 2
  | .change => 3

/-- The guard mode of a 2-bit code (R180). -/
def GuardMode.ofCode : Nat → GuardMode
  | 0 => .any
  | 1 => .advance
  | 2 => .increase
  | _ => .change

/-- A bit as a number. -/
def bit (b : Bool) : Nat := if b then 1 else 0

/-- Field of `n` bits from bit `lo` of a number. -/
def field (x lo n : Nat) : Nat := x / 2 ^ lo % 2 ^ n

/-- The four words of a region entry (R180). -/
def RegionEntry.words (e : RegionEntry) : List Word :=
  [BitVec.ofNat 16 (e.base.toNat % 65536),
   BitVec.ofNat 16 (e.base.toNat / 65536 + e.kind.code * 2 ^ 4 + e.domain.val * 2 ^ 8 + bit e.active * 2 ^ 15),
   BitVec.ofNat 16 e.size,
   BitVec.ofNat 16 e.count]

/-- The four words of a domain entry (R180). -/
def DomainCfg.words (c : DomainCfg) : List Word :=
  [BitVec.ofNat 16 (bit c.enabled * 2 ^ 15 + bit c.fence * 2 ^ 14 + bit c.strict * 2 ^ 13 + c.guardMode.code * 2 ^ 8
      + (c.quota - 1) % 128),
   BitVec.ofNat 16 (c.commitAddr.toNat % 65536),
   BitVec.ofNat 16 (c.commitAddr.toNat / 65536),
   c.deadline]

/-- One bit of the CRC: the register shifted, combined with 0x1021 when its bit 15 differs from the data bit (R181). -/
def crcBit (reg : Word) (b : Bool) : Word :=
  if reg.getLsbD 15 != b then (reg <<< 1) ^^^ 0x1021 else reg <<< 1

/-- The bit numbers in the order the CRC takes them (R181). -/
def crcOrder : List Nat := [15, 14, 13, 12, 11, 10, 9, 8, 7, 6, 5, 4, 3, 2, 1, 0]

/-- The CRC of a list of words (R181). -/
def crc (ws : List Word) : Word :=
  ws.foldl (fun reg w => crcOrder.foldl (fun r i => crcBit r (w.getLsbD i)) reg) 0xFFFF

/-- Words 0 to 126 of a configuration copy (R180). -/
def copyBody (sequence : Word) (l : Layout) : List Word :=
  [0x4E42, sequence, BitVec.ofNat 16 (l.logLength % 65536), BitVec.ofNat 16 (l.logLength / 65536 % 16),
   BitVec.ofNat 16 (bit l.verify), 0, 0, 0]
  ++ regionIndices.flatMap (fun r => l.regions[r].words)
  ++ domainIndices.flatMap (fun d => l.domains[d].words)
  ++ List.replicate 39 0

/-- The 128 words of a configuration copy, the CRC last (R161, R180). -/
def copyWords (sequence : Word) (l : Layout) : List Word :=
  copyBody sequence l ++ [crc (copyBody sequence l)]

/-- Word k of a list of words, 0 past its end. -/
def wordOf (ws : List Word) (k : Nat) : Nat := (ws.getD k 0).toNat

/-- The region entry in four words from word k (R180); none when the kind is 3. -/
def readRegion (ws : List Word) (k : Nat) : Option RegionEntry :=
  (RegionKind.ofCode (field (wordOf ws (k + 1)) 4 2)).map fun kind =>
    { active := decide (field (wordOf ws (k + 1)) 15 1 = 1)
      base := BitVec.ofNat 19 (wordOf ws k + field (wordOf ws (k + 1)) 0 3 * 65536)
      size := wordOf ws (k + 2)
      count := wordOf ws (k + 3)
      kind := kind
      domain := Fin.ofNat 4 (field (wordOf ws (k + 1)) 8 2) }

/-- The domain entry in four words from word k (R180). -/
def readDomain (ws : List Word) (k : Nat) : DomainCfg :=
  { enabled := decide (field (wordOf ws k) 15 1 = 1)
    fence := decide (field (wordOf ws k) 14 1 = 1)
    strict := decide (field (wordOf ws k) 13 1 = 1)
    guardMode := GuardMode.ofCode (field (wordOf ws k) 8 2)
    quota := field (wordOf ws k) 0 7 + 1
    commitAddr := BitVec.ofNat 19 (wordOf ws (k + 1) + field (wordOf ws (k + 2)) 0 3 * 65536)
    deadline := ws.getD (k + 3) 0 }

/-- The regions of a copy when every kind is one (R156, check 2), entry by entry from entry r. -/
def readRegions (ws : List Word) : List (Fin 16) → Vector RegionEntry 16 → Option (Vector RegionEntry 16)
  | [], v => some v
  | r :: rest, v =>
    match readRegion ws (8 + 4 * r.val) with
    | none => none
    | some e => readRegions ws rest (v.set r e)

/-- The layout in a configuration copy (R180); none when some entry names no kind (R156, check 2). -/
def readLayout (ws : List Word) : Option Layout :=
  (readRegions ws regionIndices Layout.cleared.regions).map fun rs =>
    { regions := rs
      domains := domainIndices.foldl (fun (v : Vector DomainCfg 4) (d : Fin 4) => v.set d (readDomain ws (72 + 4 * d.val))) Layout.cleared.domains
      logLength := wordOf ws 2 + field (wordOf ws 3) 0 4 * 65536
      verify := decide (field (wordOf ws 4) 0 1 = 1) }

/-! ### Validation (R155, R156) -/

/-- The failure details of an invalid layout (R138). -/
inductive ConfigDetail where
  | overlap
  | logOverlap
  | outOfRange
  | commitWord
  | domainDisabled
  | quota
  | noSlots
  deriving DecidableEq, Repr

/-- The first failure of a layout with the entries it names, 0 where it names none (R156, R157). -/
structure ConfigFailure where
  detail : ConfigDetail
  first : Nat
  second : Nat
  deriving DecidableEq, Repr

/-- Two runs of words share a word. -/
def spansMeet (b1 n1 b2 n2 : Nat) : Bool := decide (0 < n1) && decide (0 < n2) && decide (b1 < b2 + n2) && decide (b2 < b1 + n1)

/-- The words a region occupies (R3). -/
def RegionEntry.wordCount (e : RegionEntry) : Nat := e.size * e.count

/-- Check 1: L in 264 to 0x80000, and the log area ends at or below 0x7FFFF (R156). -/
def check1 (start : Nat) (l : Layout) : Option ConfigFailure :=
  if 264 ≤ l.logLength ∧ l.logLength ≤ 0x80000 ∧ start + l.logLength ≤ 0x80000 then none
  else some { detail := .outOfRange, first := 0, second := 0 }

/-- The fields of a region entry are in range, and an active region ends at or below 0x7FFFF (R156, check 2). -/
def RegionEntry.inRange (e : RegionEntry) : Bool :=
  decide (1 ≤ e.size) && decide (e.size ≤ 64) && decide (1 ≤ e.count) && decide (e.count ≤ 4096)
    && (!e.active || decide (e.base.toNat + e.wordCount ≤ 0x80000))

/-- The first region in ascending order that fails a test, with the detail of that check. -/
def firstRegion (detail : ConfigDetail) (ok : Fin 16 → Bool) : Option ConfigFailure :=
  (regionIndices.find? (fun r => !ok r)).map fun r => { detail := detail, first := r.val, second := 0 }

/-- The first domain in ascending order that fails a test, with the detail of that check. -/
def firstDomain (detail : ConfigDetail) (ok : Fin 4 → Bool) : Option ConfigFailure :=
  (domainIndices.find? (fun d => !ok d)).map fun d => { detail := detail, first := d.val, second := 0 }

/-- Check 2 (R156). -/
def check2 (l : Layout) : Option ConfigFailure := firstRegion .outOfRange (fun r => l.regions[r].inRange)

/-- Check 3: no active region has a word in the log area (R156). -/
def check3 (start : Nat) (l : Layout) : Option ConfigFailure :=
  firstRegion .logOverlap fun r =>
    !(l.regions[r].active && spansMeet l.regions[r].base.toNat l.regions[r].wordCount start l.logLength)

/-- Two different active regions share a word. -/
def Layout.overlap (l : Layout) (i j : Fin 16) : Bool :=
  decide (i < j) && l.regions[i].active && l.regions[j].active
    && spansMeet l.regions[i].base.toNat l.regions[i].wordCount l.regions[j].base.toNat l.regions[j].wordCount

/-- Check 4: the first pair that overlaps, by its lower and then its higher index (R156). -/
def check4 (l : Layout) : Option ConfigFailure :=
  ((regionIndices.flatMap (fun i => regionIndices.map (fun j => (i, j)))).find? (fun p => l.overlap p.1 p.2)).map
    fun p => { detail := .overlap, first := p.1.val, second := p.2.val }

/-- Check 5: every active JOURNAL or ONCE region names an enabled domain (R156). -/
def check5 (l : Layout) : Option ConfigFailure :=
  firstRegion .domainDisabled fun r =>
    !l.regions[r].active || decide (l.regions[r].kind = .fixed) || l.domains[l.regions[r].domain].enabled

/-- Check 6: every enabled domain's commit word lies in an active JOURNAL region of that domain (R156). -/
def check6 (l : Layout) : Option ConfigFailure :=
  firstDomain .commitWord fun d =>
    !l.domains[d].enabled ||
      regionIndices.any fun r => l.regions[r].covers l.domains[d].commitAddr.toNat
        && decide (l.regions[r].kind = .journal) && decide (l.regions[r].domain = d)

/-- Check 7: S is at least 1 (R156). -/
def check7 (l : Layout) : Option ConfigFailure :=
  if 1 ≤ l.geometry.slots then none else some { detail := .noSlots, first := 0, second := 0 }

/-- Check 8: every enabled domain's quota is at most S (R156). -/
def check8 (l : Layout) : Option ConfigFailure :=
  firstDomain .quota fun d => !l.domains[d].enabled || decide (l.domains[d].quota ≤ l.geometry.slots)

/-- The first failure in the order of R156, or none for a valid layout. -/
def validate (start : Nat) (l : Layout) : Option ConfigFailure :=
  match check1 start l with
  | some f => some f
  | none =>
  match check2 l with
  | some f => some f
  | none =>
  match check3 start l with
  | some f => some f
  | none =>
  match check4 l with
  | some f => some f
  | none =>
  match check5 l with
  | some f => some f
  | none =>
  match check6 l with
  | some f => some f
  | none =>
  match check7 l with
  | some f => some f
  | none => check8 l

/-- A configuration copy read by LOAD, judged against a log start: its sequence and layout when it is valid (R120). -/
def readCopy (start : Nat) (ws : List Word) : Option (Word × Layout) :=
  if ws.getD 0 0 = 0x4E42 ∧ crc (ws.take 127) = ws.getD 127 0 then
    match readLayout ws with
    | none => none
    | some l => if (validate start l).isNone then some (ws.getD 1 0, l) else none
  else none

/-- Sequence b is higher than sequence a (R121). -/
def sequenceHigher (b a : Word) : Bool := decide (1 ≤ (b - a).toNat) && decide ((b - a).toNat ≤ 32767)

/-- LOAD's choice between two copies (R121). -/
def chooseCopy (a b : Option (Word × Layout)) : Option Chosen :=
  match a, b with
  | none, none => none
  | some (q, l), none => some { copy := .a, sequence := q, layout := l }
  | none, some (q, l) => some { copy := .b, sequence := q, layout := l }
  | some (qa, la), some (qb, lb) =>
    if sequenceHigher qb qa then some { copy := .b, sequence := qb, layout := lb }
    else some { copy := .a, sequence := qa, layout := la }

end Sys2Proof.Machine
end

