-- ==== Sys2Proof/Machine/Flags.lean ====
section
/-! DEFINITION. Conditions and outputs computed from the state: the guard, quiet, the pins and the status byte. -/

namespace Sys2Proof.Machine

/-- The guard accepts the new commit word value over the old one (R11). -/
def GuardMode.passes (g : GuardMode) (old new : Word) : Bool :=
  match g with
  | .any => true
  | .advance => decide (new = old + 1)
  | .increase => decide (old.toNat < new.toNat)
  | .change => decide (new ≠ old)

/-- A domain's update state leaves the device quiet (R147). -/
def UpdateState.isQuiet : UpdateState → Bool
  | .disabled => true
  | .idle => true
  | .fenced => true
  | _ => false

/-- The device is quiet: every domain DISABLED, IDLE or FENCED, every slot FREE or BAD (R147). -/
def State.quiet (s : State) : Bool :=
  domainIndices.all (fun d => (s.dom d).state.isQuiet)
    && s.pool.all (fun e => decide (e.state = .free) || decide (e.state = .bad))

/-- Some slot is BAD (R150). -/
def State.anyBad (s : State) : Bool := s.pool.any (fun e => decide (e.state = .bad))

/-- The mode refuses requests that would change state (R141). -/
def Mode.isBusy : Mode → Bool
  | .starting => true
  | .frozen => true
  | .installing => true
  | _ => false

/-- The mode holds an arriving access of this kind (R68). -/
def Mode.holds (m : Mode) (write : Bool) : Bool :=
  match m with
  | .starting => true
  | .frozen => true
  | .installing => write
  | _ => false

/-- READY (R67, R116). -/
def State.ready (s : State) : Bool :=
  s.powered && !(decide (s.mode = .starting) || decide (s.mode = .frozen))

/-- WAIT# asserted: from arrival until CLOSING or VACANT (R64, R66), and for a new cycle that waits (R65). -/
def State.waitAsserted (s : State) : Bool :=
  match s.port.state with
  | .vacant => s.port.waiting.isSome
  | .closing => s.port.waiting.isSome
  | _ => true

/-- The word the part drives on D[15:0]: a read's data, in CLOSING (R66). -/
def State.dataDriven (s : State) : Option Word :=
  if s.port.state = .closing ∧ s.port.cycle.write = false then some s.port.cycle.data else none

/-- IRQ# asserted: the Event Queue holds a record (R176). -/
def State.irqAsserted (s : State) : Bool := !s.events.isEmpty

/-- A long operation is pending (R134). -/
def State.longPending (s : State) : Bool := decide (s.link.pendingOp ≠ .none)

/-- The byte the part shifts out as byte n of a frame, counted from 1: the output copy, then zero beyond byte 29 (R135, R182);
nothing while SSEL# is high, while RESET# is taken, or in a frame that RESET# cut off (R140). -/
def State.shiftedOut (s : State) (n : Nat) : Option Byte :=
  if s.powered && s.link.receiving && !s.resetTaken then
    some (if n ≤ 29 then (s.link.output.getD []).getD (n - 1) 0 else 0)
  else none

/-- The level of SDO once k bits of the frame have been clocked: the bits of the bytes shifted out, each byte's most significant
bit first; the first bit stands from the fall of SSEL# (R135, R182). None: SDO is not driven. -/
def State.sdo (s : State) (k : Nat) : Option Bool := (s.shiftedOut (k / 8 + 1)).map fun b => b.getLsbD (7 - k % 8)

/-- The encoding of a mode (R182). -/
def Mode.code : Mode → Nat
  | .starting => 0
  | .unconfigured => 1
  | .guarding => 2
  | .bypass => 3
  | .installing => 4
  | .frozen => 5

/-- The status byte: bits 2:0 mode, bit 3 IRQ#, bit 4 long operation pending (R138, R182). -/
def State.statusByte (s : State) : Byte :=
  BitVec.ofNat 8 (s.mode.code + bit s.irqAsserted * 8 + bit s.longPending * 16)

end Sys2Proof.Machine
end

