-- ==== Sys2Proof/Machine/Update.lean ====
section
/-! DEFINITION. The Update Controller: abort and rollback (R32 to R36, R86, R89), joining (R22 to R24), commit attempts
(R28 to R30), and the Host Port's reports of blocked and dropped writes (R78, R82). -/

namespace Sys2Proof.Machine

/-! ### Blocked and dropped writes -/

/-- The WRITE_BLOCKED event of a write: region absent for LOG_AREA, domain absent for LOG_AREA and FIXED regions (R78). -/
def blockedEvent (reason : Reason) (c : BusCycle) (cls : Option Classification) : Event :=
  match cls with
  | some (.hit h) => .writeBlocked reason c.addr (some h.region) (if h.kind = .fixed then none else some h.domain) 1
  | _ => .writeBlocked reason c.addr none none 1

/-- Reports the Port's write to the Event Unit (R78). -/
def reportWrite (reason : Reason) (s : State) : State := record (blockedEvent reason s.port.cycle s.port.cls) s

/-- Sets the disposition of the Port's access. -/
def setDisp (d : Disposition) (s : State) : State := { s with port := { s.port with disp := some d } }

/-- The Port's write is dropped: reported, nothing stored, the boost withdrawn, the bus cycle ended (R22, R34, R79, R110). -/
def dropWrite (reason : Reason) (s : State) : State :=
  closePort (setBoost false (setDisp (.drop reason) (reportWrite reason s)))

/-! ### Rollback -/

/-- Start of rollback, one step (R33): ROLLING, timer stopped, the members newest first as the restore list, ACTIVE members
RESTORING, a restore stream with the open epoch and the cause (R85). -/
def startRollback (d : Fin 4) (cause : Cause) (s : State) : State :=
  let r := s.dom d
  (moveSlots .active .restoring r.members s).setDom d
    { r with
      state := .rolling
      timer := 0
      restoreList := r.members.reverse
      members := []
      stream := some { epoch := r.openEpoch, cause := cause, slot := none, pos := .read 0, back := false, restored := 0 } }

/-- End of rollback, one step (R89): FENCED or IDLE by the fence flag, ABORTED recorded, the stream discarded. -/
def endRollback (d : Fin 4) (s : State) : State :=
  let r := s.dom d
  match r.stream with
  | none => s
  | some st =>
    record (.aborted d st.epoch st.cause st.restored)
      (s.setDom d { r with state := if (s.cfg d).fence then .fenced else .idle, stream := none })

/-- The restore stream takes the next slot off the head of its list, unless a slot is in progress or a slot of the list is
COPYING; with nothing left the rollback ends (R86, R88, R89; log 14). -/
def beginRestore (d : Fin 4) (s : State) : State :=
  let r := s.dom d
  match r.stream with
  | none => s
  | some st =>
    if st.slot.isSome then s
    else match r.restoreList with
      | [] => endRollback d s
      | i :: rest =>
        if r.restoreList.any (fun j => decide ((s.slot j).state = .copying)) then s
        else s.setDom d { r with
          restoreList := rest
          stream := some { st with slot := some i, pos := .read 0, back := false } }

/-- The host's store is the access in progress. -/
def State.hostAtMemory (s : State) : Bool :=
  match s.memPort.access with
  | some a => decide (a.claimant = .host) && !a.orphan
  | none => false

/-- The Port's write belongs to the domain and waits for the Update Controller's verdict. -/
def State.holdsWriteOf (s : State) (d : Fin 4) : Bool :=
  decide (s.port.state = .deciding) && decide (s.port.disp = some .journal) &&
    match s.port.cls with
    | some (.hit h) => decide (h.domain = d)
    | _ => false

/-- The write held when its domain aborts: kept while its copy runs, finished when its store has begun (R104), otherwise
dropped at once (R34; a store admitted but not begun: log 13). -/
def dropHeld (d : Fin 4) (s : State) : State :=
  if s.holdsWriteOf d then
    match s.port.stage with
    | .copy => s
    | .store => if s.hostAtMemory then s else dropWrite .dropped s
    | .commitStore => s
    | .epochWrite => s
    | .none => dropWrite .dropped s
    | .slot => dropWrite .dropped s
    | .backlog => dropWrite .dropped s
  else s

/-- An abort with its cause: start of rollback, the held write settled, the restore begun or the rollback ended at once
(R33, R34, R35). -/
def abortUpdate (d : Fin 4) (cause : Cause) (s : State) : State :=
  beginRestore d (dropHeld d (startRollback d cause s))

/-- The STRAY abort of one domain, when it is strict and OPEN (R36). It finds no held write of the domain. -/
def strayDomain (d : Fin 4) (s : State) : State :=
  if (s.cfg d).strict ∧ (s.dom d).state = .opened then beginRestore d (startRollback d .stray s) else s

/-- The STRAY condition: every strict OPEN domain aborts (R36). -/
def stray (s : State) : State := strayDomain 3 (strayDomain 2 (strayDomain 1 (strayDomain 0 s)))

/-- A blocked write: reported, STRAY raised where told, the cycle ended, in that order (R77, R82). -/
def blockWrite (reason : Reason) (raiseStray : Bool) (s : State) : State :=
  let s1 := reportWrite reason (setDisp (.block reason) s)
  closePort (if raiseStray then stray s1 else s1)

/-! ### Joining -/

/-- Third to fifth step of a join with slot `i` in hand (R23): the domain opens if it was IDLE and its timer is loaded (R37),
the slot is COPYING for the record, joins the member list and the Slot Index, and the copy starts. -/
def takeSlot (h : Hit) (i : Nat) (rest : List Nat) (s : State) : State :=
  let r := s.dom h.domain
  let s1 : State := { s with
    freeQueue := rest
    slotIndex := s.slotIndex ++ [{ region := h.region, record := h.record, slot := i }]
    copy := some { slot := i, pos := .read 0, back := false, sum := 0 } }
  let s2 := s1.setDom h.domain { r with
    state := .opened
    timer := if r.state = .idle then (s.cfg h.domain).deadline.toNat else r.timer
    members := r.members ++ [i] }
  setBoost false (setStage .copy (s2.setSlot i
    { state := .copying, domain := h.domain, epoch := r.openEpoch, region := h.region, record := h.record }))

/-- Second step of a join, and each deciding again: the head of the Free Queue, else a wait with boost while a slot can come
free, else LOG_FULL (R23, R24, R110). -/
def seekSlot (h : Hit) (s : State) : State :=
  match s.freeQueue with
  | i :: rest => takeSlot h i rest s
  | [] => if s.slotComing then setBoost true (setStage .slot s) else abortUpdate h.domain .logFull s

/-- A record joins: first the quota, then the slot (R23). -/
def joinRecord (h : Hit) (s : State) : State :=
  if (s.dom h.domain).state = .opened ∧ (s.cfg h.domain).quota ≤ (s.dom h.domain).members.length then
    abortUpdate h.domain .quota s
  else seekSlot h s

/-! ### Commit -/

/-- The old value of the guard: the commit word's image in the commit record's slot (R12, log 16). -/
def State.oldCommitValue (s : State) (h : Hit) : Word :=
  match s.indexed h.region h.record with
  | some i => Memory.word s.memory (s.slotAddr i (4 + h.offset))
  | none => 0

/-- The guard is evaluated: on a pass COMMITTING with the timer stopped and the host's store asked for; on a failure an abort
with cause GUARD (R11, R12, R30). -/
def evaluateGuard (h : Hit) (s : State) : State :=
  let old := s.oldCommitValue h
  let s1 := setBoost false s
  if (s.cfg h.domain).guardMode.passes old (mergeLanes s.port.cycle.lanes old s.port.cycle.data) then
    setStage .commitStore (s1.setDom h.domain { s.dom h.domain with state := .committing, timer := 0 })
  else abortUpdate h.domain .guard (setStage .none s1)

/-- A commit attempt whose record is a member waits for backlog with boost, or has its guard evaluated (R28, R29). -/
def commitAttempt (h : Hit) (s : State) : State :=
  if (s.dom h.domain).backlog = 0 then evaluateGuard h s else setBoost true (setStage .backlog s)

/-- The write's record is a member: it holds an ACTIVE slot in the Slot Index (R22). -/
def State.isMember (s : State) (h : Hit) : Bool :=
  match s.indexed h.region h.record with
  | some i => decide ((s.slot i).state = .active)
  | none => false

/-- The Update Controller disposes of a write handed to it (R22, R27, R28). COMMITTING and DISABLED are not met by a newly
taken write; in a state no run reaches the write stays undecided (log 22). -/
def decideJournal (h : Hit) (s : State) : State :=
  match (s.dom h.domain).state with
  | .idle => joinRecord h s
  | .opened =>
    if s.isMember h then
      if s.isCommitWord h.domain s.port.cycle.addr then commitAttempt h s else setStage .store s
    else joinRecord h s
  | .rolling => dropWrite .rolling s
  | .fenced => dropWrite .fenced s
  | .failed => dropWrite .failed s
  | .committing => s
  | .disabled => s

/-- The hit of the Port's write, when it is handed to the Update Controller. -/
def State.journalHit (s : State) : Option Hit :=
  if s.port.state = .deciding ∧ s.port.disp = some .journal then
    match s.port.cls with
    | some (.hit h) => some h
    | _ => none
  else none

/-- A write held for a free slot is decided again (R24). -/
def decideSlotAgain (s : State) : State :=
  if s.port.stage = .slot then
    match s.journalHit with
    | some h => seekSlot h s
    | none => s
  else s

/-- A commit attempt held for backlog has its guard evaluated when its domain's backlog has reached zero (R29, R60). -/
def decideBacklogAgain (s : State) : State :=
  if s.port.stage = .backlog then
    match s.journalHit with
    | some h => if (s.dom h.domain).backlog = 0 then evaluateGuard h s else s
    | none => s
  else s

/-! ### Host accesses taken for decision (R68, R71 to R84) -/

/-- A read passes or is redirected: in GUARDING by the state of the slot the Slot Index holds for its record (R72, R73);
an ACTIVE slot redirects the alternate master only. -/
def readDisposition (s : State) (alt : Bool) (cls : Classification) : Disposition :=
  match s.mode, cls with
  | .guarding, .hit h =>
    if h.kind = .fixed then .pass
    else match s.indexed h.region h.record with
      | none => .pass
      | some i =>
        match (s.slot i).state with
        | .active => if alt then .redirect i (s.slotAddr i (4 + h.offset)) else .pass
        | .restoring => .redirect i (s.slotAddr i (4 + h.offset))
        | .stranded => .redirect i (s.slotAddr i (4 + h.offset))
        | _ => .pass
  | _, _ => .pass

/-- The Port passes the access to the memory (R63, R64). -/
def passAccess (d : Disposition) (s : State) : State :=
  { s with port := { s.port with state := .atMemory, disp := some d, stage := .none } }

/-- A write handed to the Update Controller (R79). -/
def handJournal (h : Hit) (s : State) : State :=
  decideJournal h { s with port := { s.port with state := .deciding, disp := some .journal, stage := .none } }

/-- A write with a lane enabled is disposed of by mode, master and classification (R77, R81, R84). -/
def takeWrite (cls : Classification) (s : State) : State :=
  match s.mode with
  | .guarding =>
    match cls with
    | .uncovered => passAccess .pass s
    | .logArea => blockWrite .logArea (!s.port.cycle.alt) s
    | .hit h =>
      if s.port.cycle.alt then blockWrite .altWrite false s
      else if h.kind = .fixed then blockWrite .fixed true s
      else handJournal h s
  | .bypass =>
    match cls with
    | .logArea => blockWrite .logArea false s
    | _ => passAccess .pass s
  | _ => passAccess .pass s

/-- The Port takes its access for decision in the present mode, classified against the present tables (R17, R64, R68); a write
with no lane enabled is NO_EFFECT (R76). -/
def takeAccess (s : State) : State :=
  let cls := classify s s.port.cycle.addr
  let s1 : State := { s with port := { s.port with cls := some cls } }
  if s.port.cycle.write then
    if noLanes s.port.cycle.lanes then closePort (setDisp .noEffect s1) else takeWrite cls s1
  else passAccess (readDisposition s s.port.cycle.alt cls) s1

/-- An access arrives at a VACANT Port: latched, and held or taken (R63, R64, R68). -/
def arrive (c : BusCycle) (s : State) : State :=
  let s1 : State := { s with port :=
    { state := .held, cycle := c, cls := none, disp := none, stage := .none, early := false, waiting := none } }
  if s.mode.holds c.write then s1 else takeAccess s1

/-- The end of a mode hold: an ENDED access closes (R70), a HELD one is taken unless the new mode holds it too (R68). -/
def endHold (s : State) : State :=
  match s.port.state with
  | .held => if s.mode.holds s.port.cycle.write then s else takeAccess s
  | .deciding => if s.port.disp = some .ended then closePort s else s
  | _ => s

end Sys2Proof.Machine
end

