-- ==== Sys2Proof/Machine/Start.lean ====
section
/-! DEFINITION. Entries into STARTING and FROZEN, power-up, what each kind of start keeps (R70, R113, R118, R128 to R132), the
beginning of LOAD (R120) and the ticks (R37, R38, R119). -/

namespace Sys2Proof.Machine

/-- The access in progress at an entry into STARTING: it finishes, but its claimant is discarded, unless it is the host access
of a Port in AT_MEMORY (R70, R104; log 17). -/
def stoppedAccess (s : State) : Option Access :=
  s.memPort.access.map fun a =>
    if a.claimant = .host ∧ s.port.state = .atMemory then a else { a with orphan := true }

/-- The Host Port at an entry into STARTING or FROZEN (R70). -/
def stoppedPort (s : State) : HostPort :=
  match s.port.state with
  | .atMemory => if s.hostAtMemory then s.port else { s.port with state := .held, cls := none, disp := none }
  | .deciding => { s.port with disp := some .ended, stage := .none }
  | _ => s.port

/-- Entry into FROZEN: Memory Port stopped, Host Port settled, timers stopped; the working state stays, and the access in progress
keeps its claimant (R104, R113, R130). -/
def enterFrozen (s : State) : State :=
  { s with
    mode := .frozen
    port := stoppedPort s
    memPort := { s.memPort with stopped := true }
    domains := s.domains.map (fun r => { r with timer := 0 }) }

/-- Entry into STARTING at LOAD: working state, streams and claims discarded, the recovery record cleared but for the restored
domains set (R105, R118, R128, R132). -/
def enterStarting (kind : StartKind) (s : State) : State :=
  { s with
    mode := .starting
    recovery := .entered kind .load s.recovery.restoredDomains
    layout := .cleared
    activeCopy := none
    activeSequence := 0
    geometry := { wmax := 0, stride := 0, slots := 0 }
    domains := Vector.replicate 4 .discarded
    pool := []
    freeQueue := []
    slotIndex := []
    retireQueue := []
    copy := none
    commit := none
    retireBack := false
    install := none
    port := stoppedPort s
    memPort := { access := stoppedAccess s, stopped := true, boost := false, pointer := 4 } }

/-- What RESET# clears beside the working state: Staging Tables, Event Queue, mask, Result Buffer and pending operation; a frame
in progress is abandoned and its rest ignored (R132, R140, R177). -/
def resetClears (s : State) : State :=
  { s with
    staging := .cleared
    events := []
    mask := BitVec.allOnes 9
    link := { Link.powerUp with ignoring := s.link.receiving || s.link.ignoring } }

/-- RESET# is taken (R128). -/
def takeReset (s : State) : State := enterStarting .reset (resetClears { s with resetTaken := true })

/-- Power-up: every block at its power-up value, the memory kept (R116, R119, R132). -/
def poweredUp (straps : Straps) (pfw reset : Bool) (s : State) : State :=
  { State.reset with
    pfwAsserted := pfw
    resetAsserted := reset
    resetTaken := reset
    straps := straps
    mt := straps.mt
    memory := s.memory
    arrivals := s.arrivals
    pending := s.pending }

/-- Loss of supply: all working state inside the part is lost, the memory keeps what the last finished access left (R113,
log 10). -/
def supplyLost (s : State) : State :=
  { State.reset with
    powered := false
    pfwAsserted := s.pfwAsserted
    resetAsserted := s.resetAsserted
    straps := s.straps
    memory := s.memory
    arrivals := s.arrivals
    pending := s.pending }

/-- LOAD may begin: STARTING stands at a LOAD not yet begun, RESET# is released, no access is in progress (R105, R119, R128,
R131, log 18). -/
def State.loadReady (s : State) : Bool :=
  decide (s.mode = .starting) && decide (s.recovery.phase = .load) && decide (s.recovery.pos = .idle)
    && !s.resetAsserted && s.memPort.access.isNone

/-- LOAD begins when it may: the straps are sampled and the Memory Port is no longer stopped (R103, R120). -/
def loadBegin (s : State) : State :=
  if s.loadReady then
    { s with
      loc := s.straps.loc
      mt := s.straps.mt
      memPort := { s.memPort with stopped := false }
      recovery := { s.recovery with pos := .copies [] } }
  else s

/-- A tick in SETTLE counts while PFW# is released; the second ends SETTLE (R119). -/
def settleTick (s : State) : State :=
  if s.pfwAsserted then s
  else { s with recovery := { s.recovery with
    settle := s.recovery.settle + 1
    phase := if 2 ≤ s.recovery.settle + 1 then .load else .settle } }

/-- A tick for one domain: a running timer falls by one; at zero an OPEN update aborts with cause DEADLINE (R37, R38). -/
def tickDomain (d : Fin 4) (s : State) : State :=
  let s1 := s.setDom d { s.dom d with timer := (s.dom d).timer - 1 }
  if (s.dom d).timer = 1 ∧ (s.dom d).state = .opened then abortUpdate d .deadline s1 else s1

/-- A tick for every domain, ascending. -/
def tickDomains (s : State) : State := tickDomain 3 (tickDomain 2 (tickDomain 1 (tickDomain 0 s)))

/-- STARTING stands in SETTLE. -/
def State.inSettle (s : State) : Bool := decide (s.mode = .starting) && decide (s.recovery.phase = .settle)

/-- A tick of the 1 ms time base: it counts in SETTLE, runs the timers in GUARDING, and has no effect elsewhere (R37, R119,
R130). -/
def tickBody (s : State) : State :=
  if s.inSettle then settleTick s
  else if s.mode = .guarding then tickDomains s
  else s

end Sys2Proof.Machine
end

