-- ==== Sys2Proof/Machine/Streams.lean ====
section
/-! DEFINITION. The runtime streams: copy (R57, R58), commit (R30), retire (R59, R60) and restore (R87, R88): the accesses each
makes, how it goes on with the word an access returned, and the steps that end its work, media faults among them. -/

namespace Sys2Proof.Machine

/-- A read for a claimant: both lanes (R71, R103). -/
def readAccess (c : Claimant) (a : Addr) : Access :=
  { claimant := c, write := false, addr := a, lanes := bothLanes, data := 0, orphan := false }

/-- A write of a stream: both lanes (R103). -/
def writeAccess (c : Claimant) (a : Addr) (w : Word) : Access :=
  { claimant := c, write := true, addr := a, lanes := bothLanes, data := w, orphan := false }

/-- A stream's write of a word, or the read-back of it (R94). -/
def writeOrBack (c : Claimant) (back : Bool) (a : Addr) (w : Word) : Access :=
  if back then readAccess c a else writeAccess c a w

/-! ### Copy (R57, R58) -/

/-- The active region entry of a slot's record. -/
def State.slotRegion (s : State) (i : Nat) : RegionEntry := s.layout.regions[(s.slot i).region]

/-- The address of the copy stream's present word (R48, R57). -/
def copyAddr (s : State) (c : CopyStream) : Addr :=
  match c.pos with
  | .read k => recordWord (s.slotRegion c.slot) (s.slot c.slot).record k
  | .image k _ => s.slotAddr c.slot (4 + k)
  | .epoch => s.slotAddr c.slot 1
  | .locator => s.slotAddr c.slot 2
  | .check => s.slotAddr c.slot 3
  | .tag => s.slotAddr c.slot 0

/-- The word the copy stream writes at its present position (R57, R178, R179). -/
def copyValue (s : State) (c : CopyStream) : Word :=
  match c.pos with
  | .read _ => 0
  | .image _ w => w
  | .epoch => (s.slot c.slot).epoch
  | .locator => locatorWord (s.slot c.slot).region (s.slot c.slot).record
  | .check =>
    checkWord (s.slot c.slot).epoch (locatorWord (s.slot c.slot).region (s.slot c.slot).record) c.sum
  | .tag => liveTag (s.slot c.slot).domain

/-- The copy stream's next access. -/
def copyAccess (s : State) (c : CopyStream) : Access :=
  match c.pos with
  | .read _ => readAccess .copy (copyAddr s c)
  | _ => writeOrBack .copy c.back (copyAddr s c) (copyValue s c)

/-- How a copy goes on after an access: further, at its end, at a word that is not blank, or at a media fault. -/
inductive CopyOut where
  | more (c : CopyStream)
  | done
  | notBlank
  | fault (a : Addr)
  deriving DecidableEq, Repr

/-- The position after a written word, image words ascending, then epoch, locator, check, and the tag last (R57). -/
def copyAdvance (n : Nat) (c : CopyStream) : CopyOut :=
  match c.pos with
  | .read _ => .more c
  | .image k w =>
    .more { c with pos := if k + 1 < n then .read (k + 1) else .epoch, back := false, sum := c.sum + w }
  | .epoch => .more { c with pos := .locator, back := false }
  | .locator => .more { c with pos := .check, back := false }
  | .check => .more { c with pos := .tag, back := false }
  | .tag => .done

/-- The copy after its access returned a word: the blank test of a ONCE record (R58), the read-back comparison (R94). -/
def copyNext (s : State) (c : CopyStream) (data : Word) : CopyOut :=
  match c.pos with
  | .read k =>
    if (s.slotRegion c.slot).kind = .once ∧ data ≠ 0xFFFF then .notBlank
    else .more { c with pos := .image k data, back := false }
  | _ =>
    if c.back then
      if data = copyValue s c then copyAdvance (s.slotRegion c.slot).size c else .fault (copyAddr s c)
    else if s.layout.verify then .more { c with back := true }
    else copyAdvance (s.slotRegion c.slot).size c

/-- The copy completes (R25, R34, R90): ACTIVE in an OPEN domain, and the held write goes on to its store or its commit;
RESTORING in a domain that aborted meanwhile, and the held write is dropped. -/
def copyDone (c : CopyStream) (s : State) : State :=
  let d := (s.slot c.slot).domain
  let s1 : State := { s with copy := none }
  match (s.dom d).state with
  | .opened =>
    let s2 := s1.setSlotState c.slot .active
    match s2.journalHit with
    | some h => if s2.isCommitWord h.domain s2.port.cycle.addr then commitAttempt h s2 else setStage .store s2
    | none => s2
  | .rolling => beginRestore d (dropHeld d (setStage .none (s1.setSlotState c.slot .restoring)))
  | _ => s1

/-- A ONCE record is not blank (R26, R90): the slot goes FREE at the head of the Free Queue and leaves the Slot Index; an OPEN
domain blocks the write ONCE_USED, IDLE again when no member is left; a ROLLING domain drops it. -/
def copyNotBlank (c : CopyStream) (s : State) : State :=
  let d := (s.slot c.slot).domain
  let r := s.dom d
  let s1 : State := { s with copy := none, freeQueue := c.slot :: s.freeQueue }
  let s2 := (s1.unindex c.slot).setSlot c.slot .freeEntry
  match r.state with
  | .opened =>
    let left := r.members.erase c.slot
    blockWrite .onceUsed true (s2.setDom d { r with
      members := left
      state := if left = [] then .idle else .opened
      timer := if left = [] then 0 else r.timer })
  | .rolling =>
    beginRestore d (dropHeld d (setStage .none (s2.setDom d { r with restoreList := r.restoreList.erase c.slot })))
  | _ => s2

/-- A media fault in a copy (R90, R96): the slot goes BAD; an OPEN update aborts with cause MEDIA; a ROLLING domain only loses
the slot; the held write is dropped. -/
def copyFault (c : CopyStream) (a : Addr) (s : State) : State :=
  let d := (s.slot c.slot).domain
  let r := s.dom d
  let s1 : State := { s with copy := none }
  let s2 := record (.mediaFault .copy (some c.slot) a) ((s1.unindex c.slot).setSlot c.slot .badEntry)
  match r.state with
  | .opened => abortUpdate d .media (setStage .none (s2.setDom d { r with members := r.members.erase c.slot }))
  | .rolling =>
    beginRestore d (dropHeld d (setStage .none (s2.setDom d { r with restoreList := r.restoreList.erase c.slot })))
  | _ => s2

/-- The copy stream takes the word its access returned. -/
def copyTakes (data : Word) (s : State) : State :=
  match s.copy with
  | none => s
  | some c =>
    match copyNext s c data with
    | .more c' => { s with copy := some c' }
    | .done => copyDone c s
    | .notBlank => copyNotBlank c s
    | .fault a => copyFault c a s

/-! ### Commit (R30, R100) -/

/-- The commit stream's epoch write or its read-back (R30, R94). -/
def commitAccess (s : State) (c : CommitStream) : Access :=
  writeOrBack .commit c.back (epochAddr s.logStart c.domain) (s.dom c.domain).openEpoch

/-- Fourth to seventh step of the commit (R30): the epoch advances, the members go RETIRING on the Retire Queue and leave the
Slot Index, the domain goes IDLE, COMMITTED is recorded, the host's cycle ends. -/
def commitDone (d : Fin 4) (s : State) : State :=
  let r := s.dom d
  let s1 := moveSlots .active .retiring r.members s
  let s2 : State := { s1 with
    commit := none
    retireQueue := s.retireQueue ++ r.members
    slotIndex := s.slotIndex.filter (fun e => !r.members.contains e.slot) }
  let s3 := s2.setDom d
    { r with state := .idle, committed := r.openEpoch, backlog := r.members.length, members := [] }
  closePort (setDisp .pass (record (.committed d r.openEpoch r.members.length) s3))

/-- A media fault of the epoch write (R42, R100): the members are STRANDED, the domain is FAILED, the write counts as stored. -/
def commitFault (d : Fin 4) (s : State) : State :=
  let r := s.dom d
  let s1 := moveSlots .active .stranded r.members s
  let s2 : State := { s1 with commit := none }
  let s3 := s2.setDom d { r with state := .failed, members := [] }
  closePort (setDisp .pass
    (record (.domainFailed d r.openEpoch) (record (.mediaFault .commit none (epochAddr s.logStart d)) s3)))

/-- The commit stream takes the word its access returned (R30, R94). -/
def commitTakes (data : Word) (s : State) : State :=
  match s.commit with
  | none => s
  | some c =>
    if c.back then
      if data = (s.dom c.domain).openEpoch then commitDone c.domain s else commitFault c.domain s
    else if s.layout.verify then { s with commit := some { c with back := true } }
    else commitDone c.domain s

/-! ### Retire (R59, R60, R97) -/

/-- The retire stream's tag write for the head of the Retire Queue, or its read-back (R59). -/
def retireAccess (s : State) (i : Nat) : Access := writeOrBack .retire s.retireBack (s.slotAddr i 0) 0

/-- A slot leaves RETIRING and the Retire Queue, and its domain's backlog falls by one (R60, R97). -/
def retireLeaves (i : Nat) (e : PoolEntry) (s : State) : State :=
  let d := (s.slot i).domain
  let s1 : State := { s with retireQueue := s.retireQueue.tail, retireBack := false }
  (s1.setSlot i e).setDom d { s.dom d with backlog := (s.dom d).backlog - 1 }

/-- A retire ends: the slot goes FREE to the tail of the Free Queue; a waiting write and a waiting commit are decided (R60). -/
def retireDone (i : Nat) (s : State) : State :=
  let s1 := retireLeaves i .freeEntry s
  decideBacklogAgain (decideSlotAgain { s1 with freeQueue := s1.freeQueue ++ [i] })

/-- A media fault in a retire: the slot goes BAD and nothing joins the Free Queue (R97). -/
def retireFault (i : Nat) (s : State) : State :=
  decideBacklogAgain (decideSlotAgain
    (record (.mediaFault .retire (some i) (s.slotAddr i 0)) (retireLeaves i .badEntry s)))

/-- The retire stream takes the word its access returned (R60, R94). -/
def retireTakes (data : Word) (s : State) : State :=
  match s.retireQueue with
  | [] => s
  | i :: _ =>
    if s.retireBack then
      if data = 0 then retireDone i s else retireFault i s
    else if s.layout.verify then { s with retireBack := true }
    else retireDone i s

/-! ### Restore (R87, R88, R98, R99); shared with the recovery (R124) -/

/-- The address a restore of slot `i` works on (R87). -/
def restoreAddr (s : State) (e : RegionEntry) (i rec : Nat) (pos : RestorePos) : Addr :=
  match pos with
  | .read k => s.slotAddr i (4 + k)
  | .word k _ => recordWord e rec k
  | .tag => s.slotAddr i 0

/-- The next access of a restore (R87, R124). -/
def restoreAccess (c : Claimant) (s : State) (e : RegionEntry) (i rec : Nat) (pos : RestorePos) (back : Bool) : Access :=
  match pos with
  | .read _ => readAccess c (restoreAddr s e i rec pos)
  | .word _ w => writeOrBack c back (restoreAddr s e i rec pos) w
  | .tag => writeOrBack c back (restoreAddr s e i rec pos) 0

/-- How a restore of a slot goes on after an access. -/
inductive RestoreOut where
  | more (pos : RestorePos) (back : Bool)
  | slotDone
  | tagFault
  | recordFault
  deriving DecidableEq, Repr

/-- The restore after its access returned a word: image words ascending, each written to the record, then the tag (R87). -/
def restoreNext (n : Nat) (verify : Bool) (pos : RestorePos) (back : Bool) (data : Word) : RestoreOut :=
  match pos with
  | .read k => .more (.word k data) false
  | .word k w =>
    if !back && verify then .more pos true
    else if back && decide (data ≠ w) then .recordFault
    else .more (if k + 1 < n then .read (k + 1) else .tag) false
  | .tag =>
    if !back && verify then .more pos true
    else if back && decide (data ≠ 0) then .tagFault
    else .slotDone

/-- A slot's runtime restore ends: FREE to the Free Queue tail, out of the Slot Index, counted; a waiting write is decided;
the stream goes on (R88). -/
def restoreSlotDone (d : Fin 4) (st : RestoreStream) (i : Nat) (s : State) : State :=
  let s1 : State := (s.unindex i).setSlot i .freeEntry
  let s2 : State := { s1 with freeQueue := s1.freeQueue ++ [i] }
  let s3 := s2.setDom d { s.dom d with stream := some { st with slot := none, restored := st.restored + 1 } }
  beginRestore d (decideSlotAgain s3)

/-- A media fault at the tag of a restore: the record is restored, the slot goes BAD (R99). When this both ends the rollback and
leaves another domain's waiting write without a slot, the write is decided first, so its events precede the rollback's ABORTED;
the manual does not fix the order (R24, R88, R99, R173; log 34). -/
def restoreTagFault (d : Fin 4) (st : RestoreStream) (i : Nat) (s : State) : State :=
  let s1 : State := (s.unindex i).setSlot i .badEntry
  let s2 := s1.setDom d { s.dom d with stream := some { st with slot := none, restored := st.restored + 1 } }
  beginRestore d (decideSlotAgain (record (.mediaFault .restore (some i) (s.slotAddr i 0)) s2))

/-- A media fault at a record word of a restore: the slot and the rest of the list are STRANDED, the domain is FAILED;
MEDIA_FAULT, ABORTED, DOMAIN_FAILED (R42, R98). -/
def restoreRecordFault (d : Fin 4) (st : RestoreStream) (i : Nat) (a : Addr) (s : State) : State :=
  let r := s.dom d
  let s1 := moveSlots .restoring .stranded (i :: r.restoreList) s
  let s2 := s1.setDom d { r with state := .failed, restoreList := [], stream := none }
  decideSlotAgain
    (record (.domainFailed d st.epoch)
      (record (.aborted d st.epoch st.cause st.restored) (record (.mediaFault .restore (some i) a) s2)))

/-- A domain's restore stream takes the word its access returned. -/
def restoreTakes (d : Fin 4) (data : Word) (s : State) : State :=
  match (s.dom d).stream with
  | none => s
  | some st =>
    match st.slot with
    | none => s
    | some i =>
      match restoreNext (s.slotRegion i).size s.layout.verify st.pos st.back data with
      | .more pos back => s.setDom d { s.dom d with stream := some { st with pos := pos, back := back } }
      | .slotDone => restoreSlotDone d st i s
      | .tagFault => restoreTagFault d st i s
      | .recordFault =>
        restoreRecordFault d st i (restoreAddr s (s.slotRegion i) i (s.slot i).record st.pos) s

/-- A restore stream's next access (R87). -/
def restoreStreamAccess (s : State) (d : Fin 4) : Option Access :=
  match (s.dom d).stream with
  | none => none
  | some st =>
    st.slot.map fun i => restoreAccess (.restore d) s (s.slotRegion i) i (s.slot i).record st.pos st.back

/-! ### The host access (R64, R106) -/

/-- The host's memory access: a passed or redirected access in AT_MEMORY, or an admitted store in DECIDING (R71, R76, R106). -/
def hostAccess (s : State) : Option Access :=
  let c := s.port.cycle
  let store : Access := { claimant := .host, write := true, addr := c.addr, lanes := c.lanes, data := c.data, orphan := false }
  match s.port.state with
  | .atMemory =>
    if c.write then some store
    else some (readAccess .host (match s.port.disp with
      | some (.redirect _ image) => image
      | _ => c.addr))
  | .deciding =>
    match s.port.stage with
    | .store => some store
    | .commitStore => some store
    | _ => none
  | _ => none

/-- The host's memory access completes: a read's data is latched; a passed access and a stored write close; after a commit's
store the commit stream begins (R30, R64). -/
def hostTakes (data : Word) (s : State) : State :=
  match s.port.state with
  | .atMemory =>
    if s.port.cycle.write then closePort s
    else closePort { s with port := { s.port with cycle := { s.port.cycle with data := data } } }
  | .deciding =>
    match s.port.stage, s.journalHit with
    | .store, _ => closePort (setDisp .pass s)
    | .commitStore, some h => setStage .epochWrite { s with commit := some { domain := h.domain, back := false } }
    | _, _ => s
  | _ => s

end Sys2Proof.Machine
end

