-- ==== Sys2Proof/Machine/Recovery.lean ====
section
/-! DEFINITION. The recovery of STARTING: LOAD (R120, R121), SCAN (R122, R123), RESTORE (R124, R125) and the end of STARTING
(R126, R127). -/

namespace Sys2Proof.Machine

/-- Updates the recovery record. -/
def State.setRecovery (s : State) (r : Recovery) : State := { s with recovery := r }

/-! ### End of STARTING -/

/-- The result of the pending long operation at the end of STARTING: OK for a RESTART, NONE for an INSTALL (R126, R147). -/
def postPending (s : State) : State :=
  match s.link.pendingOp with
  | .none => s
  | .restart tag => clearPending (post tag codeRestart .ok [] s)
  | .install tag => clearPending (post tag codeInstall .none [] s)

/-- The runtime record of a domain at the end of STARTING (R19, R126). -/
def recoveredDomain (s : State) (d : Fin 4) : Runtime :=
  if (s.cfg d).enabled then
    { Runtime.discarded with
      committed := s.recovery.epochs[d]
      state :=
        if s.recovery.failedDomains[d] then .failed
        else if (s.cfg d).fence && s.recovery.restoredDomains[d] then .fenced
        else .idle }
  else .discarded

/-- The pool entry of a slot outcome (R126). -/
def SlotOutcome.entry : SlotOutcome → PoolEntry
  | .free => .freeEntry
  | .listed => .freeEntry
  | .bad => .badEntry
  | .stranded it => { state := .stranded, domain := it.domain, epoch := it.epoch, region := it.region, record := it.record }

/-- The Slot Index entry of a slot outcome (R126). -/
def SlotOutcome.indexEntry (o : SlotOutcome) (i : Nat) : Option IndexEntry :=
  match o with
  | .stranded it => some { region := it.region, record := it.record, slot := i }
  | _ => none

/-- The FREE slots of a pool in ascending order (R54). -/
def freeSlots (pool : List PoolEntry) : List Nat :=
  (List.range pool.length).filter (fun i => decide ((pool.getD i .badEntry).state = .free))

/-- DOMAIN_FAILED for each failed domain, ascending (R126). -/
def recordFailed (s : State) : State :=
  domainIndices.foldl (fun t d =>
    if (t.dom d).state = .failed then record (.domainFailed d (t.dom d).openEpoch) t else t) s

/-- End of STARTING in GUARDING, one step (R126). -/
def endStarting (s : State) : State :=
  let pool := s.recovery.outcomes.map SlotOutcome.entry
  let s1 : State := { s with
    domains := Vector.ofFn (recoveredDomain s)
    pool := pool
    freeQueue := freeSlots pool
    slotIndex := s.recovery.outcomes.zipIdx.filterMap (fun p => p.1.indexEntry p.2)
    retireQueue := [] }
  let s2 := record (.recovered s.recovery.startKind s.recovery.counts) (recordFailed s1)
  let s3 := postPending s2
  endHold { s3 with
    mode := .guarding
    recovery := { s3.recovery with restoredDomains := Vector.replicate 4 false, pos := .idle } }

/-- End of STARTING in UNCONFIGURED, one step (R127). -/
def endUnconfigured (s : State) : State :=
  let s1 := postPending (record (.unconfigured s.recovery.startKind) s)
  endHold { s1 with
    mode := .unconfigured
    recovery := { s1.recovery with restoredDomains := Vector.replicate 4 false, pos := .idle } }

/-! ### RESTORE -/

/-- The end of LOAD or of STARTING that the recovery's last word leads to; in FROZEN it is not taken, and the recovery stands
between two accesses (R130, log 17). -/
def unlessFrozen (s ended : State) : State :=
  if s.mode = .frozen then s.setRecovery { s.recovery with pos := .idle } else ended

/-- RESTORE takes the listed slot with the highest number, or ends STARTING (R124, R126). -/
def nextRestore (s : State) : State :=
  match s.recovery.list.getLast? with
  | none => unlessFrozen s (endStarting s)
  | some it => s.setRecovery { s.recovery with list := s.recovery.list.dropLast, pos := .restore it (.read 0) false }

/-- A listed slot restored and its tag cleared (R124). -/
def recoveryRestored (it : RecItem) (s : State) : State :=
  let r := s.recovery
  nextRestore (s.setRecovery { r with
    outcomes := r.outcomes.set it.slot .free
    counts := { r.counts with restored := r.counts.restored + 1 }
    restoredDomains := r.restoredDomains.set it.domain true })

/-- A media fault at the tag in RESTORE: restored, but the slot BAD (R125). -/
def recoveryTagFault (it : RecItem) (s : State) : State :=
  let r := s.recovery
  nextRestore (record (.mediaFault .recovery (some it.slot) (s.slotAddr it.slot 0)) (s.setRecovery { r with
    outcomes := r.outcomes.set it.slot .bad
    counts := { r.counts with restored := r.counts.restored + 1, bad := r.counts.bad + 1 }
    restoredDomains := r.restoredDomains.set it.domain true }))

/-- Marks slots STRANDED in the outcomes. -/
def strandOutcomes (items : List RecItem) (outcomes : List SlotOutcome) : List SlotOutcome :=
  items.foldl (fun o it => o.set it.slot (.stranded it)) outcomes

/-- A media fault at a record word in RESTORE: the slot and its domain's other listed slots are STRANDED (R125). -/
def recoveryRecordFault (it : RecItem) (a : Addr) (s : State) : State :=
  let r := s.recovery
  let items := it :: r.list.filter (fun x => decide (x.domain = it.domain))
  nextRestore (record (.mediaFault .recovery (some it.slot) a) (s.setRecovery { r with
    list := r.list.filter (fun x => decide (x.domain ≠ it.domain))
    outcomes := strandOutcomes items r.outcomes
    counts := { r.counts with stranded := r.counts.stranded + items.length }
    failedDomains := r.failedDomains.set it.domain true }))

/-- RESTORE takes the word its access returned (R124, R125). -/
def recoveryRestoreTakes (it : RecItem) (pos : RestorePos) (back : Bool) (data : Word) (s : State) : State :=
  match restoreNext it.size s.layout.verify pos back data with
  | .more pos' back' => s.setRecovery { s.recovery with pos := .restore it pos' back' }
  | .slotDone => recoveryRestored it s
  | .tagFault => recoveryTagFault it s
  | .recordFault =>
    recoveryRecordFault it (restoreAddr s s.layout.regions[it.region] it.slot it.record pos) s

/-! ### SCAN -/

/-- SCAN goes to the next slot, or to RESTORE after the last (R122). -/
def scanNext (s : State) : State :=
  if s.recovery.scanPos < s.geometry.slots then s.setRecovery { s.recovery with pos := .scan .tag false }
  else nextRestore (s.setRecovery { s.recovery with phase := .restore })

/-- The slot at the scan position is settled with an outcome. -/
def scanSettles (o : SlotOutcome) (s : State) : State :=
  scanNext (s.setRecovery { s.recovery with
    outcomes := s.recovery.outcomes ++ [o], scanPos := s.recovery.scanPos + 1 })

/-- Adds one to the count of a judgement (R122). -/
def Counts.add (c : Counts) (j : Judgement) : Counts :=
  match j with
  | .stale => { c with stale := c.stale + 1 }
  | .torn => { c with torn := c.torn + 1 }
  | .discarded => { c with discarded := c.discarded + 1 }

/-- The judgement leads to a tag clear (R122). -/
def scanClear (j : Judgement) (s : State) : State :=
  s.setRecovery { s.recovery with pos := .scan (.clear j) false }

/-- The tag clear is done: the slot is free, its judgement counted (R122). -/
def scanCleared (j : Judgement) (s : State) : State :=
  scanSettles .free (s.setRecovery { s.recovery with counts := s.recovery.counts.add j })

/-- A tag clear that does not read back zero: the slot is BAD, counted beside its judgement (R123). -/
def scanClearFault (j : Judgement) (s : State) : State :=
  let c := s.recovery.counts.add j
  scanSettles .bad
    (record (.mediaFault .recovery (some s.recovery.scanPos) (s.slotAddr s.recovery.scanPos 0))
      (s.setRecovery { s.recovery with counts := { c with bad := c.bad + 1 } }))

/-- A locator is valid: an active JOURNAL or ONCE region of the tag's domain, a record number below its count (R122). -/
def locatorValid (s : State) (d : Fin 4) (loc : Word) : Bool :=
  let e := s.layout.regions[locatorRegion loc]
  e.active && decide (e.kind ≠ .fixed) && decide (e.domain = d) && decide (locatorRecord loc < e.count)

/-- The item of a listed slot (R118). -/
def scanItem (s : State) (d : Fin 4) (epoch loc : Word) : RecItem :=
  { slot := s.recovery.scanPos, domain := d, epoch := epoch, region := locatorRegion loc, record := locatorRecord loc,
    size := (s.layout.regions[locatorRegion loc]).size }

/-- The record is already on the recovery list (R122). -/
def Recovery.lists (r : Recovery) (region : Fin 16) (rec : Nat) : Bool :=
  r.list.any (fun it => decide (it.region = region) && decide (it.record = rec))

/-- The judgement of a live slot whose words have all been read (R122). -/
def scanJudge (d : Fin 4) (epoch loc chk sum : Word) (s : State) : State :=
  if checkWord epoch loc sum ≠ chk then scanClear .torn s
  else if epoch = s.recovery.epochs[d] then scanClear .discarded s
  else if epoch = s.recovery.epochs[d] + 1 ∧ s.recovery.lists (locatorRegion loc) (locatorRecord loc) = false then
    scanSettles .listed (s.setRecovery { s.recovery with list := s.recovery.list ++ [scanItem s d epoch loc] })
  else scanClear .stale s

/-- SCAN takes the word its access returned (R122, R123). -/
def scanTakes (pos : ScanPos) (back : Bool) (data : Word) (s : State) : State :=
  match pos with
  | .tag =>
    if data = 0 then scanSettles .free s
    else match tagDomain data with
      | none => scanClear .stale s
      | some d =>
        if (s.cfg d).enabled then s.setRecovery { s.recovery with pos := .scan (.epoch d) false }
        else scanClear .stale s
  | .epoch d => s.setRecovery { s.recovery with pos := .scan (.locator d data) false }
  | .locator d epoch =>
    if locatorValid s d data then s.setRecovery { s.recovery with pos := .scan (.check d epoch data) false }
    else scanClear .stale s
  | .check d epoch loc => s.setRecovery { s.recovery with pos := .scan (.image d epoch loc data 0 0) false }
  | .image d epoch loc chk k sum =>
    if k + 1 < (s.layout.regions[locatorRegion loc]).size then
      s.setRecovery { s.recovery with pos := .scan (.image d epoch loc chk (k + 1) (sum + data)) false }
    else scanJudge d epoch loc chk (sum + data) s
  | .clear j =>
    if back then
      if data = 0 then scanCleared j s else scanClearFault j s
    else if s.layout.verify then s.setRecovery { s.recovery with pos := .scan (.clear j) true }
    else scanCleared j s

/-! ### LOAD -/

/-- End of LOAD with a chosen copy: the tables, the geometry, the copy and its sequence become active, and SCAN begins
(R118, R121). -/
def loadAdopts (c : Chosen) (s : State) : State :=
  unlessFrozen s (scanNext { s with
    layout := c.layout
    activeCopy := some c.copy
    activeSequence := c.sequence
    geometry := c.layout.geometry
    recovery := { s.recovery with phase := .scan, scanPos := 0 } })

/-- Both copies have been read: the choice is made (R121). -/
def loadChooses (ws : List Word) (s : State) : State :=
  match chooseCopy (readCopy s.logStart (ws.take 128)) (readCopy s.logStart (ws.drop 128)) with
  | none => unlessFrozen s (endUnconfigured s)
  | some c =>
    match c.layout.enabledDomains with
    | [] => loadAdopts c (s.setRecovery { s.recovery with chosen := some c })
    | ds => s.setRecovery { s.recovery with chosen := some c, pos := .epochs ds }

/-- LOAD takes a word of the configuration copies (R120). -/
def loadCopyTakes (ws : List Word) (data : Word) (s : State) : State :=
  if ws.length + 1 < 256 then s.setRecovery { s.recovery with pos := .copies (ws ++ [data]) }
  else loadChooses (ws ++ [data]) s

/-- LOAD takes an epoch word (R121). -/
def loadEpochTakes (ds : List (Fin 4)) (data : Word) (s : State) : State :=
  match ds with
  | [] => s
  | d :: rest =>
    let s1 := s.setRecovery { s.recovery with epochs := s.recovery.epochs.set d data, pos := .epochs rest }
    match rest, s.recovery.chosen with
    | [], some c => loadAdopts c s1
    | _, _ => s1

/-! ### The recovery as a claimant -/

/-- The word of a slot SCAN's present access reads or writes (R122). -/
def scanWord : ScanPos → Nat
  | .tag => 0
  | .epoch _ => 1
  | .locator _ _ => 2
  | .check _ _ _ => 3
  | .image _ _ _ _ k _ => 4 + k
  | .clear _ => 0

/-- The recovery's next access (R112, R120, R122, R124). -/
def recoveryAccess (s : State) : Option Access :=
  match s.recovery.pos with
  | .idle => none
  | .copies ws => some (readAccess .recovery (logWord s.logStart ws.length))
  | .epochs [] => none
  | .epochs (d :: _) => some (readAccess .recovery (epochAddr s.logStart d))
  | .scan (.clear _) back => some (writeOrBack .recovery back (s.slotAddr s.recovery.scanPos 0) 0)
  | .scan pos _ => some (readAccess .recovery (s.slotAddr s.recovery.scanPos (scanWord pos)))
  | .restore it pos back =>
    some (restoreAccess .recovery s s.layout.regions[it.region] it.slot it.record pos back)

/-- The recovery takes the word its access returned. -/
def recoveryTakes (data : Word) (s : State) : State :=
  match s.recovery.pos with
  | .idle => s
  | .copies ws => loadCopyTakes ws data s
  | .epochs ds => loadEpochTakes ds data s
  | .scan pos back => scanTakes pos back data s
  | .restore it pos back => recoveryRestoreTakes it pos back data s

end Sys2Proof.Machine
end

