-- ==== Sys2Proof/Machine/Install.lean ====
section
/-! DEFINITION. The INSTALL operation (R159 to R164). -/

namespace Sys2Proof.Machine

/-- Word k of a configuration copy in the log area (R44). -/
def copyAddr128 (start : Nat) (c : CopyName) (k : Nat) : Addr :=
  match c with
  | .a => logWord start k
  | .b => logWord start (128 + k)

/-- An accepted INSTALL: the target copy, the new sequence, the stream at its first tag, mode INSTALLING, IN_PROGRESS posted
and pending (R147, R159). -/
def acceptInstall (tag : Byte) (s : State) : State :=
  let s1 := post tag codeInstall .inProgress [] s
  { s1 with
    mode := .installing
    link := { s1.link with pendingOp := .install tag }
    install := some
      { returnMode := if s.mode = .bypass then .bypass else .guarding
        target := if s.activeCopy = some .a then .b else .a
        sequence := if s.activeCopy.isNone then 1 else s.activeSequence + 1
        step := .tags 0
        back := false
        epochs := Vector.replicate 4 0 } }

/-- The address and the word of the install stream's present write (R160, R161); the new geometry is the staged one. -/
def installWrite (s : State) (st : InstallStream) : Addr × Word :=
  match st.step with
  | .tags i => (slotWord s.logStart s.staging.geometry.stride i 0, 0)
  | .copy k => (copyAddr128 s.logStart st.target k, (copyWords st.sequence s.staging).getD k 0)
  | .epochs _ => (0, 0)

/-- The install stream's next access (R160, R161, R162). -/
def installAccess (s : State) (st : InstallStream) : Option Access :=
  match st.step with
  | .epochs [] => none
  | .epochs (d :: _) => some (readAccess .install (epochAddr s.logStart d))
  | _ => some (writeOrBack .install st.back (installWrite s st).1 (installWrite s st).2)

/-- Updates the install stream. -/
def State.setInstall (s : State) (st : InstallStream) : State := { s with install := some st }

/-- The runtime record of a domain after the adoption step (R19, R162). -/
def adoptedDomain (s : State) (st : InstallStream) (d : Fin 4) : Runtime :=
  if s.staging.domains[d].enabled then
    { Runtime.discarded with state := .idle, committed := st.epochs[d] }
  else .discarded

/-- The pending long operation ends with a result under its tag and INSTALL's code (R147). -/
def postInstallResult (result : ResultCode) (s : State) : State :=
  match s.link.pendingOp with
  | .install tag => clearPending (post tag codeInstall result [] s)
  | _ => s

/-- The adoption step (R162). -/
def adopt (st : InstallStream) (s : State) : State :=
  let pool := List.replicate s.staging.geometry.slots PoolEntry.freeEntry
  let s1 : State := { s with
    layout := s.staging
    geometry := s.staging.geometry
    pool := pool
    freeQueue := List.range s.staging.geometry.slots
    slotIndex := []
    retireQueue := []
    domains := Vector.ofFn (adoptedDomain s st)
    activeCopy := some st.target
    activeSequence := st.sequence }
  let s2 := postInstallResult .ok (record (.installed st.sequence) s1)
  endHold { s2 with mode := st.returnMode, install := none }

/-- Step EPOCHS begins; with no domain enabled the adoption step is taken at once (R162). -/
def installBeginsEpochs (st : InstallStream) (s : State) : State :=
  match s.staging.enabledDomains with
  | [] => adopt st s
  | ds => s.setInstall { st with step := .epochs ds, back := false }

/-- A written word of the install is done: the next tag, the first copy word, the next copy word, or step EPOCHS (R160,
R161). -/
def installAdvance (st : InstallStream) (s : State) : State :=
  match st.step with
  | .tags i =>
    s.setInstall { st with
      step := if i + 1 < s.staging.geometry.slots then .tags (i + 1) else .copy 0
      back := false }
  | .copy k =>
    if k + 1 < 128 then s.setInstall { st with step := .copy (k + 1), back := false }
    else installBeginsEpochs st s
  | .epochs _ => s

/-- A media fault of the install: MEDIA_FAULT, INSTALL_FAILED, MEDIA posted, then a warm restart (R164). -/
def installFault (st : InstallStream) (s : State) : State :=
  let detail : InstallDetail := match st.step with
    | .tags _ => .tags
    | _ => .copy
  enterStarting .warm
    (postInstallResult .media
      (record (.installFailed detail) (record (.mediaFault .install none (installWrite s st).1) s)))

/-- The install stream takes the word its access returned (R160, R161, R162, R164). -/
def installTakes (data : Word) (s : State) : State :=
  match s.install with
  | none => s
  | some st =>
    match st.step with
    | .epochs [] => s
    | .epochs (d :: rest) =>
      let st1 := { st with epochs := st.epochs.set d data, step := .epochs rest }
      match rest with
      | [] => adopt st1 s
      | _ => s.setInstall st1
    | _ =>
      if st.back then
        if data = (installWrite s st).2 then installAdvance st s else installFault st s
      else if s.staging.verify then s.setInstall { st with back := true }
      else installAdvance st s

end Sys2Proof.Machine
end

