-- ==== Sys2Proof/Machine/Arbiter.lean ====
section
/-! DEFINITION. The Memory Port: claims (R106), grant decisions (R107 to R110), the completion of an access (R103, R104), and
the end of a command's step. -/

namespace Sys2Proof.Machine

/-! ### Claims (R106) -/

/-- The next access of a claimant, when it has one ready (R106, R112). -/
def accessOf (s : State) : Claimant → Option Access
  | .host => hostAccess s
  | .copy => s.copy.map (copyAccess s)
  | .commit => s.commit.map (commitAccess s)
  | .restore d => restoreStreamAccess s d
  | .install => s.install.bind (installAccess s)
  | .retire => s.retireQueue.head?.map (retireAccess s)
  | .recovery => if s.mode = .starting then recoveryAccess s else none

/-- Every claimant. -/
def claimants : List Claimant :=
  [.host, .recovery, .copy, .commit, .restore 0, .restore 1, .restore 2, .restore 3, .install, .retire]

/-- The claimant has a claim standing at a decision, no access being in progress. -/
def State.claims (s : State) (c : Claimant) : Bool := (accessOf s c).isSome

/-- The claims standing. -/
def State.standing (s : State) : List Claimant := claimants.filter s.claims

/-! ### Grants -/

/-- The claimant of a round-robin position (R109). -/
def positionClaimant (p : Fin 5) : Claimant :=
  match p with
  | 0 => .restore 0
  | 1 => .restore 1
  | 2 => .restore 2
  | 3 => .restore 3
  | 4 => .install

/-- The positions in cyclic order, from the one after the pointer (R109). -/
def roundRobin (p : Fin 5) : List (Fin 5) := [p + 1, p + 2, p + 3, p + 4, p]

/-- The round-robin pointer after a grant: moved by a grant at rank 3 only (R109). -/
def pointerAfter (p : Fin 5) : Claimant → Fin 5
  | .restore 0 => 0
  | .restore 1 => 1
  | .restore 2 => 2
  | .restore 3 => 3
  | .install => 4
  | _ => p

/-- The claim of highest rank (R107): the host (in STARTING the recovery, alone there, R112); copy, commit and the boosted
retire; restore and install in round-robin; the retire. -/
def bestClaim (s : State) : Option Claimant :=
  let order : List Claimant :=
    [.host, .recovery, .copy, .commit]
    ++ (if s.memPort.boost then [.retire] else [])
    ++ (roundRobin s.memPort.pointer).map positionClaimant
    ++ [.retire]
  order.find? s.claims

/-- The arbiter grants a claim: its access begins, and the claim is withdrawn with it (R107). -/
def grant (c : Claimant) (s : State) : State :=
  { s with memPort :=
    { s.memPort with access := accessOf s c, pointer := pointerAfter s.memPort.pointer c } }

/-- A grant decision (R107), when no access is in progress and the Memory Port is not stopped. At a completion the highest
rank is granted; of several claims that arrive at an idle port together one is taken first, which one is free (log 12). -/
def arbitrate (completion : Bool) (s : State) : State :=
  if s.memPort.access.isSome || s.memPort.stopped then s
  else if !completion && decide (2 ≤ s.standing.length) then
    grant (s.standing.getD (Config.arrivalPick s.arrivals % s.standing.length) .host) { s with arrivals := s.arrivals + 1 }
  else match bestClaim s with
    | none => s
    | some c => grant c s

/-! ### The end of a step -/

/-- What ends every step in which a claim can arise: LOAD begins when it may (R120), the arbiter decides (R107), and a new
cycle that waits arrives at a vacant Port after that decision (R65, R115). -/
def settleStep (completion : Bool) (s : State) : State :=
  let s1 := arbitrate completion (loadBegin s)
  match s1.port.state, s1.port.waiting with
  | .vacant, some c => arbitrate false (arrive c s1)
  | _, _ => s1

/-! ### Completion of the access in progress (R103, R104) -/

/-- The word an access gives its claimant: for a read the stored word, for a write the written one, unless the memory's own
failure makes it another (log 7). -/
def accessData (flaw : Option Word) (m : List Host.Cell) (a : Access) : Word :=
  match flaw with
  | some w => w
  | none => if a.write then a.data else Memory.word m a.addr

/-- The memory after an access: a write stores its enabled lanes (R103, R104), or leaves in them what a failed write leaves. -/
def memoryAfter (flaw : Option Word) (m : List Host.Cell) (a : Access) : List Host.Cell :=
  if a.write then Memory.setWord m a.addr a.lanes (accessData flaw m a) else m

/-- The word of a completed access is handed to its claimant (R103). -/
def deliver (c : Claimant) (data : Word) (s : State) : State :=
  match c with
  | .host => hostTakes data s
  | .copy => copyTakes data s
  | .commit => commitTakes data s
  | .restore d => restoreTakes d data s
  | .install => installTakes data s
  | .retire => retireTakes data s
  | .recovery => recoveryTakes data s

/-- The word of an access that ends in FROZEN is handed to its claimant, whose own record takes it (R104): the host's read data,
the stream's position, the recovery record with its restored domains (R124, R133). What the end of a stream's work leads to
is not taken: pool, queues, domains and mode stay as they stood (R53, R130), and no block posts (R177; log 17). -/
def deliverFrozen (c : Claimant) (data : Word) (s : State) : State :=
  match c with
  | .host => hostTakes data s
  | .copy =>
    match s.copy with
    | none => s
    | some k =>
      match copyNext s k data with
      | .more k' => { s with copy := some k' }
      | _ => s
  | .commit =>
    match s.commit with
    | none => s
    | some k => if !k.back && s.layout.verify then { s with commit := some { k with back := true } } else s
  | .restore d =>
    match (s.dom d).stream with
    | none => s
    | some st =>
      match st.slot with
      | none => s
      | some i =>
        match restoreNext (s.slotRegion i).size s.layout.verify st.pos st.back data with
        | .more pos back => s.setDom d { s.dom d with stream := some { st with pos := pos, back := back } }
        | _ => s
  | .install =>
    match (installTakes data s).install with
    | none => s
    | some st => s.setInstall st
  | .retire => if !s.retireBack && s.layout.verify then { s with retireBack := true } else s
  | .recovery => { recoveryTakes data s with events := s.events }

/-- The access in progress is over and the memory holds what it left. -/
def finishAccess (flaw : Option Word) (a : Access) (s : State) : State :=
  { s with
    memory := memoryAfter flaw s.memory a
    memPort := { s.memPort with access := none } }

/-- A finished access hands its word to its claimant, unless the claimant was discarded (R103, R104). -/
def handOver (a : Access) (data : Word) (s : State) : State :=
  if a.orphan then s
  else if s.mode = .frozen then deliverFrozen a.claimant data s
  else deliver a.claimant data s

/-- The access in progress completes (R103, R107): the memory takes it, its claimant the word, and the step ends with a grant
decision. -/
def completeAccess (flaw : Option Word) (a : Access) (s : State) : State :=
  settleStep true (handOver a (accessData flaw s.memory a) (finishAccess flaw a s))

/-- The access in progress completes when it meets a condition; otherwise the event does not occur (log 5). -/
def completeWhen (p : Access → Bool) (flaw : Option Word) (s : State) : State :=
  match s.memPort.access with
  | some a => if p a then completeAccess flaw a s else s
  | none => s

/-- The access belongs to a claimant that still stands. -/
def Access.liveFor (a : Access) (c : Claimant) : Bool := decide (a.claimant = c) && !a.orphan

end Sys2Proof.Machine
end

