-- ==== Sys2Proof/Machine/Supervision.lean ====
section
/-! DEFINITION. The meanings of the supply, the time base and the supervision pins: POWER_UP, SUPPLY_LOSS, TICK, SETTLE_END,
DEADLINE_EXPIRY, RESET_ASSERT, RESET_RELEASE, PFW_ASSERT, PFW_RELEASE. -/

namespace Sys2Proof.Machine

/-- The outcome of every command's effect: the next state; without supply only POWER_UP has one (log 10). -/
def answer (f : State → State) (s : State) : Host.Outcome State Fault Refusal :=
  .next (if s.powered then f s else s)

/-- POWER_UP: every block at its power-up value (R116, R119, R132); on a part with supply it stands for a loss and a return of
the supply (log 10). -/
def execPowerUp (straps : Straps) (pfw reset : Bool) (s : State) : Host.Outcome State Fault Refusal :=
  .next (poweredUp straps pfw reset s)

/-- TICK: one tick of the time base, whole, with the expiries and the end of SETTLE it brings (R37, R38, R119; log 4). -/
def execTick (s : State) : Host.Outcome State Fault Refusal :=
  answer (fun s => settleStep false (tickBody s)) s

/-- SETTLE_END: the tick that brings the settle count to two (R119; log 4, 5). -/
def execSettleEnd (s : State) : Host.Outcome State Fault Refusal :=
  answer (fun s =>
    if s.inSettle ∧ s.pfwAsserted = false ∧ s.recovery.settle = 1 then settleStep false (tickBody s) else s) s

/-- DEADLINE_EXPIRY: the tick that brings the domain's running timer to zero (R38; log 4, 5). -/
def execDeadlineExpiry (d : Fin 4) (s : State) : Host.Outcome State Fault Refusal :=
  answer (fun s =>
    if s.mode = .guarding ∧ (s.dom d).timer = 1 then settleStep false (tickBody s) else s) s

/-- The strap levels the board presents from now on (R15, R103; log 11). -/
def showStraps (straps : Straps) (s : State) : State := { s with straps := straps }

/-- RESET# is asserted (R119, R128, R130, R140): taken but in SETTLE, where only what it clears is cleared, and in FROZEN,
where it only stands on the pin. -/
def resetFalls (s : State) : State :=
  if s.resetAsserted then s
  else
    let s1 : State := { s with resetAsserted := true }
    if s.mode = .frozen then s1
    else if s.inSettle then resetClears { s1 with resetTaken := true }
    else takeReset s1

/-- RESET_ASSERT (R128). -/
def execResetAssert (straps : Straps) (s : State) : Host.Outcome State Fault Refusal :=
  answer (fun s => resetFalls (showStraps straps s)) s

/-- RESET# is released: the link listens again, and LOAD begins if nothing else holds it back (R119, R128, R140). -/
def resetRises (s : State) : State :=
  if s.resetAsserted then settleStep false { s with resetAsserted := false, resetTaken := false } else s

/-- RESET_RELEASE (R128). -/
def execResetRelease (straps : Straps) (s : State) : Host.Outcome State Fault Refusal :=
  answer (fun s => resetRises (showStraps straps s)) s

/-- PFW# is asserted: FROZEN, or in SETTLE the settle count back to zero (R119, R130). -/
def pfwFalls (s : State) : State :=
  if s.pfwAsserted then s
  else
    let s1 : State := { s with pfwAsserted := true }
    if s.inSettle then { s1 with recovery := { s1.recovery with settle := 0 } } else enterFrozen s1

/-- PFW_ASSERT (R130). -/
def execPfwAssert (straps : Straps) (s : State) : Host.Outcome State Fault Refusal :=
  answer (fun s => pfwFalls (showStraps straps s)) s

/-- PFW# is released: FROZEN ends in a warm restart, or in a RESET start with RESET# asserted (R131). -/
def pfwRises (s : State) : State :=
  if s.pfwAsserted then
    let s1 : State := { s with pfwAsserted := false }
    if s.mode = .frozen then
      settleStep false (if s.resetAsserted then takeReset s1 else enterStarting .warm s1)
    else s1
  else s

/-- PFW_RELEASE (R131). -/
def execPfwRelease (straps : Straps) (s : State) : Host.Outcome State Fault Refusal :=
  answer (fun s => pfwRises (showStraps straps s)) s

/-- SUPPLY_LOSS (R113). -/
def execSupplyLoss (s : State) : Host.Outcome State Fault Refusal := answer supplyLost s

end Sys2Proof.Machine
end

