-- ==== Sys2Proof/Machine/HostBus.lean ====
section
/-! DEFINITION. The meanings of the host bus events: HOST_READ, HOST_WRITE, HOST_CYCLE_END, HOST_ACCESS_COMPLETE. -/

namespace Sys2Proof.Machine

/-- A new cycle that waits for the Port to become vacant, or its withdrawal (R65). -/
def setWaiting (c : Option BusCycle) (s : State) : State := { s with port := { s.port with waiting := c } }

/-- A cycle on the host bus: it arrives at a VACANT Port, and waits for one otherwise (R63, R65). -/
def busCycle (c : BusCycle) (s : State) : State :=
  if s.port.state = .vacant then settleStep false (arrive c s) else setWaiting (some c) s

/-- HOST_READ (R63, R68, R71 to R75). -/
def execHostRead (addr : Addr) (lanes : Lanes) (alt : Bool) (s : State) : Host.Outcome State Fault Refusal :=
  answer (busCycle { write := false, addr := addr, lanes := lanes, alt := alt, data := 0 }) s

/-- HOST_WRITE (R63, R68, R76 to R84). -/
def execHostWrite (addr : Addr) (lanes : Lanes) (alt : Bool) (data : Word) (s : State) : Host.Outcome State Fault Refusal :=
  answer (busCycle { write := true, addr := addr, lanes := lanes, alt := alt, data := data }) s

/-- The Port returns to VACANT. -/
def vacate (s : State) : State := { s with port := { s.port with state := .vacant, stage := .none, early := false } }

/-- The host ends its cycle (R64, R65): CLOSING returns to VACANT, a HELD access is discarded, one in DECIDING or AT_MEMORY is
carried through as an early end; after an early end it is the waiting cycle that ends. -/
def endCycle (s : State) : State :=
  match s.port.state with
  | .vacant => s
  | .closing => settleStep false (vacate s)
  | .held => if s.port.early then setWaiting none s else settleStep false (vacate s)
  | .deciding => if s.port.early then setWaiting none s else { s with port := { s.port with early := true } }
  | .atMemory => if s.port.early then setWaiting none s else { s with port := { s.port with early := true } }

/-- HOST_CYCLE_END (R64, R65). -/
def execHostCycleEnd (s : State) : Host.Outcome State Fault Refusal := answer endCycle s

/-- HOST_ACCESS_COMPLETE: the memory access of the host completes (R64, R103, R104). -/
def execHostAccessComplete (flaw : Option Word) (s : State) : Host.Outcome State Fault Refusal :=
  answer (completeWhen (fun a => decide (a.claimant = .host)) flaw) s

end Sys2Proof.Machine
end

