-- ==== Sys2Proof/Machine/Requests.lean ====
section
/-! DEFINITION. The requests of the management link as they are executed (R141 to R153), their data bytes (R182, R183), and
the frame that carries them (R135 to R140). -/

namespace Sys2Proof.Machine

/-! ### Bytes (R182): most significant first -/

/-- A number in one byte. -/
def byte1 (n : Nat) : Byte := BitVec.ofNat 8 n

/-- A number in two bytes. -/
def bytes2 (n : Nat) : List Byte := [byte1 (n / 256), byte1 n]

/-- A number in three bytes. -/
def bytes3 (n : Nat) : List Byte := [byte1 (n / 65536), byte1 (n / 256), byte1 n]

/-- The encoding of a start kind (R182). -/
def StartKind.code : StartKind → Nat
  | .powerUp => 1
  | .reset => 2
  | .restart => 3
  | .warm => 4

/-- The encoding of an update state (R182). -/
def UpdateState.code : UpdateState → Nat
  | .disabled => 0
  | .idle => 1
  | .opened => 2
  | .committing => 3
  | .rolling => 4
  | .fenced => 5
  | .failed => 6

/-- The encoding of a slot state (R182). -/
def SlotState.code : SlotState → Nat
  | .free => 0
  | .copying => 1
  | .active => 2
  | .retiring => 3
  | .restoring => 4
  | .stranded => 5
  | .bad => 6

/-- The encoding of a result code (R182). -/
def ResultCode.code : ResultCode → Nat
  | .none => 0x00
  | .ok => 0x01
  | .inProgress => 0x02
  | .busy => 0x03
  | .badRequest => 0x04
  | .badLength => 0x05
  | .badIndex => 0x06
  | .badValue => 0x07
  | .notQuiet => 0x08
  | .wrongMode => 0x09
  | .nothingOpen => 0x0A
  | .tooLate => 0x0B
  | .notFenced => 0x0C
  | .empty => 0x0D
  | .invalidConfig => 0x0E
  | .media => 0x0F

/-- The encoding of a failure detail (R182). -/
def ConfigDetail.code : ConfigDetail → Nat
  | .overlap => 1
  | .logOverlap => 2
  | .outOfRange => 3
  | .commitWord => 4
  | .domainDisabled => 5
  | .quota => 6
  | .noSlots => 7

/-- The encoding of a cause (R183). -/
def Cause.code : Cause → Nat
  | .deadline => 1
  | .guard => 2
  | .quota => 3
  | .logFull => 4
  | .stray => 5
  | .media => 6
  | .requested => 7

/-- The encoding of a reason (R183). -/
def Reason.code : Reason → Nat
  | .fixed => 1
  | .onceUsed => 2
  | .altWrite => 3
  | .logArea => 4
  | .rolling => 5
  | .fenced => 6
  | .failed => 7
  | .dropped => 8

/-- The encoding of a phase of a media fault (R183). -/
def FaultPhase.code : FaultPhase → Nat
  | .copy => 1
  | .retire => 2
  | .restore => 3
  | .commit => 4
  | .install => 5
  | .recovery => 6

/-- The encoding of an install detail (R183). -/
def InstallDetail.code : InstallDetail → Nat
  | .tags => 1
  | .copy => 2

/-- The presence bits of an event: bit 0 region, bit 1 domain, bit 2 slot (R183). -/
def Event.presence : Event → Nat
  | .committed .. => 2
  | .aborted .. => 2
  | .writeBlocked _ _ region domain _ => bit region.isSome + bit domain.isSome * 2
  | .mediaFault _ slot _ => bit slot.isSome * 4
  | .domainFailed .. => 2
  | _ => 0

/-- The bytes of an event's fields, an absent field zero (R183). -/
def Event.fieldBytes : Event → List Byte
  | .committed d epoch members => [byte1 d.val] ++ bytes2 epoch.toNat ++ [byte1 members]
  | .aborted d epoch cause restored => [byte1 d.val] ++ bytes2 epoch.toNat ++ [byte1 cause.code, byte1 restored]
  | .writeBlocked reason addr region domain count =>
    [byte1 reason.code] ++ bytes3 addr.toNat
      ++ [byte1 ((region.map (·.val)).getD 0), byte1 ((domain.map (·.val)).getD 0), byte1 count]
  | .mediaFault phase slot addr => [byte1 phase.code, byte1 (slot.getD 0)] ++ bytes3 addr.toNat
  | .domainFailed d epoch => [byte1 d.val] ++ bytes2 epoch.toNat
  | .recovered kind c =>
    [byte1 kind.code, byte1 c.restored, byte1 c.discarded, byte1 c.torn, byte1 c.stale, byte1 c.bad, byte1 c.stranded]
  | .unconfigured kind => [byte1 kind.code]
  | .installed sequence => bytes2 sequence.toNat
  | .installFailed detail => [byte1 detail.code]

/-- An event record in bytes: kind, flags, fields (R183). -/
def EventRec.bytes (r : EventRec) : List Byte :=
  [byte1 (r.event.maskBit + 1), byte1 (bit r.lost * 128 + r.event.presence)] ++ r.event.fieldBytes

/-- The kind, domain and active byte of a region (R182). -/
def RegionEntry.flagByte (e : RegionEntry) : Byte := byte1 (e.kind.code + e.domain.val * 16 + bit e.active * 128)

/-- A region entry as GET_REGION returns it (R145, R182). -/
def RegionEntry.bytes (e : RegionEntry) : List Byte :=
  [e.flagByte] ++ bytes3 e.base.toNat ++ [byte1 e.size] ++ bytes2 e.count ++ [byte1 (bit e.active)]

/-- The domain flags byte (R182). -/
def DomainCfg.flagByte (c : DomainCfg) : Byte :=
  byte1 (c.guardMode.code + bit c.strict * 32 + bit c.fence * 64 + bit c.enabled * 128)

/-- A domain configuration as GET_STAGED returns it (R145, R182). -/
def DomainCfg.bytes (c : DomainCfg) : List Byte :=
  [c.flagByte, byte1 c.quota] ++ bytes2 c.deadline.toNat ++ bytes3 c.commitAddr.toNat

/-- The result record in 28 bytes, zero filled (R138, R182). -/
def ResultRec.bytes (r : ResultRec) : List Byte :=
  let head := [r.tag, r.code, byte1 r.result.code, byte1 r.data.length] ++ r.data
  head ++ List.replicate (28 - head.length) 0

/-! ### Reading the part (R142 to R145) -/

/-- GET_STATUS (R142). -/
def reqGetStatus (tag : Byte) (s : State) : State :=
  post tag 0x01 .ok
    ([byte1 s.mode.code, byte1 s.recovery.startKind.code]
      ++ domainIndices.map (fun d => byte1 (s.dom d).state.code)
      ++ [byte1 s.pool.length, byte1 s.freeQueue.length,
          byte1 (s.pool.countP (fun e => decide (e.state = .bad))), byte1 s.retireQueue.length, byte1 s.events.length,
          byte1 (match s.activeCopy with | none => 0 | some .a => 1 | some .b => 2)]
      ++ bytes2 s.activeSequence.toNat) s

/-- The list GET_DOMAIN shows a window on (R143). -/
def Runtime.shownList (r : Runtime) : List Nat :=
  match r.state with
  | .opened => r.members
  | .committing => r.members
  | .rolling => r.restoreList
  | _ => []

/-- The open epoch as reported: 0 for a DISABLED domain (R18). -/
def Runtime.reportedOpen (r : Runtime) : Word := if r.state = .disabled then 0 else r.openEpoch

/-- The data of GET_DOMAIN (R143, R182). -/
def domainData (s : State) (d : Fin 4) (p : Nat) : List Byte :=
  let r := s.dom d
  (s.cfg d).bytes ++ [byte1 r.state.code] ++ bytes2 r.committed.toNat ++ bytes2 r.reportedOpen.toNat
    ++ [byte1 r.backlog] ++ bytes2 r.timer ++ [byte1 r.members.length, byte1 r.restoreList.length]
    ++ ((r.shownList.drop p).take 7).map byte1

/-- The index of a parameter byte when it is in range. -/
def domainOf (b : Byte) : Option (Fin 4) := if h : b.toNat < 4 then some ⟨b.toNat, h⟩ else none

/-- The region index of a parameter byte when it is in range. -/
def regionOf (b : Byte) : Option (Fin 16) := if h : b.toNat < 16 then some ⟨b.toNat, h⟩ else none

/-- GET_DOMAIN: the index is checked before the value (R141, R143, log 21). -/
def reqGetDomain (tag d p : Byte) (s : State) : State :=
  match domainOf d with
  | none => post tag 0x02 .badIndex [] s
  | some i => if p.toNat ≤ 127 then post tag 0x02 .ok (domainData s i p.toNat) s else post tag 0x02 .badValue [] s

/-- GET_SLOT (R144). -/
def reqGetSlot (tag n : Byte) (s : State) : State :=
  if n.toNat < s.pool.length then
    let e := s.slot n.toNat
    post tag 0x03 .ok
      ([byte1 e.state.code, byte1 e.domain.val] ++ bytes2 e.epoch.toNat ++ [byte1 e.region.val] ++ bytes2 e.record
        ++ bytes3 (s.slotAddr n.toNat 0).toNat) s
  else post tag 0x03 .badIndex [] s

/-- GET_REGION (R145). -/
def reqGetRegion (tag r : Byte) (s : State) : State :=
  match regionOf r with
  | some i => post tag 0x04 .ok (s.layout.regions[i]).bytes s
  | none => post tag 0x04 .badIndex [] s

/-- GET_STAGED with kind REGION (R145). -/
def reqGetStagedRegion (tag idx : Byte) (s : State) : State :=
  match regionOf idx with
  | some i => post tag 0x05 .ok (s.staging.regions[i]).bytes s
  | none => post tag 0x05 .badIndex [] s

/-- GET_STAGED with kind DOMAIN (R145). -/
def reqGetStagedDomain (tag idx : Byte) (s : State) : State :=
  match domainOf idx with
  | some i => post tag 0x05 .ok (s.staging.domains[i]).bytes s
  | none => post tag 0x05 .badIndex [] s

/-- GET_STAGED with kind LOG: L, verify, stride, S of the staged layout (R145). -/
def reqGetStagedLog (tag idx : Byte) (s : State) : State :=
  if idx = 0 then
    post tag 0x05 .ok
      (bytes3 s.staging.logLength ++
        [byte1 (bit s.staging.verify), byte1 s.staging.geometry.stride, byte1 s.staging.geometry.slots]) s
  else post tag 0x05 .badIndex [] s

/-- GET_STAGED as a frame carries it: a kind other than the three gives BAD_VALUE (R145). -/
def reqGetStaged (tag kind idx : Byte) (s : State) : State :=
  if kind = 0 then reqGetStagedRegion tag idx s
  else if kind = 1 then reqGetStagedDomain tag idx s
  else if kind = 2 then reqGetStagedLog tag idx s
  else post tag 0x05 .badValue [] s

/-! ### Preparing a layout (R146) -/

/-- A request refused BUSY in STARTING, FROZEN and INSTALLING (R141). -/
def unlessBusy (tag code : Byte) (s : State) (taken : State) : State :=
  if s.mode.isBusy then post tag code .busy [] s else taken

/-- STAGE_LOAD (R146). -/
def reqStageLoad (tag : Byte) (s : State) : State :=
  unlessBusy tag 0x10 s (post tag 0x10 .ok [] { s with staging := s.layout })

/-- The region entry that STAGE_REGION's parameters spell, when every value is in range (R146, R182). -/
def stagedRegion (base : BitVec 24) (flags size : Byte) (count : Word) : Option RegionEntry :=
  if base.toNat ≤ 0x7FFFF ∧ 1 ≤ size.toNat ∧ size.toNat ≤ 64 ∧ 1 ≤ count.toNat ∧ count.toNat ≤ 4096 then
    (RegionKind.ofCode (field flags.toNat 0 2)).map fun kind =>
      { active := decide (field flags.toNat 7 1 = 1)
        base := BitVec.ofNat 19 base.toNat
        size := size.toNat
        count := count.toNat
        kind := kind
        domain := Fin.ofNat 4 (field flags.toNat 4 2) }
  else none

/-- STAGE_REGION: the index is checked before the values (R141, R146, log 21). -/
def reqStageRegion (tag r : Byte) (base : BitVec 24) (flags size : Byte) (count : Word) (s : State) : State :=
  unlessBusy tag 0x11 s
    (match regionOf r with
    | none => post tag 0x11 .badIndex [] s
    | some i =>
      match stagedRegion base flags size count with
      | none => post tag 0x11 .badValue [] s
      | some e => post tag 0x11 .ok [] { s with staging := { s.staging with regions := s.staging.regions.set i e } })

/-- The domain entry that STAGE_DOMAIN's parameters spell, when every value is in range (R146, R182). -/
def stagedDomain (flags quota : Byte) (deadline : Word) (commit : BitVec 24) : Option DomainCfg :=
  if 1 ≤ quota.toNat ∧ quota.toNat ≤ 128 ∧ commit.toNat ≤ 0x7FFFF then
    some
      { enabled := decide (field flags.toNat 7 1 = 1)
        commitAddr := BitVec.ofNat 19 commit.toNat
        guardMode := GuardMode.ofCode (field flags.toNat 0 2)
        deadline := deadline
        quota := quota.toNat
        fence := decide (field flags.toNat 6 1 = 1)
        strict := decide (field flags.toNat 5 1 = 1) }
  else none

/-- STAGE_DOMAIN: the index is checked before the values (R141, R146, log 21). -/
def reqStageDomain (tag d flags quota : Byte) (deadline : Word) (commit : BitVec 24) (s : State) : State :=
  unlessBusy tag 0x12 s
    (match domainOf d with
    | none => post tag 0x12 .badIndex [] s
    | some i =>
      match stagedDomain flags quota deadline commit with
      | none => post tag 0x12 .badValue [] s
      | some c => post tag 0x12 .ok [] { s with staging := { s.staging with domains := s.staging.domains.set i c } })

/-- STAGE_LOG (R146). -/
def reqStageLog (tag : Byte) (len : BitVec 24) (verify : Byte) (s : State) : State :=
  unlessBusy tag 0x13 s
    (if 264 ≤ len.toNat ∧ len.toNat ≤ 0x80000 then
      post tag 0x13 .ok []
        { s with staging := { s.staging with logLength := len.toNat, verify := decide (field verify.toNat 0 1 = 1) } }
    else post tag 0x13 .badValue [] s)

/-- The data of INVALID_CONFIG: detail, first and second index, S of the staged layout (R157). -/
def invalidConfigData (s : State) (f : ConfigFailure) : List Byte :=
  [byte1 f.detail.code, byte1 f.first, byte1 f.second, byte1 s.staging.geometry.slots]

/-- INSTALL: quiet, then validity, then accepted (R147, R157). -/
def reqInstall (tag : Byte) (s : State) : State :=
  unlessBusy tag codeInstall s
    (if s.quiet then
      match validate s.logStart s.staging with
      | some f => post tag codeInstall .invalidConfig (invalidConfigData s f) s
      | none => settleStep false (acceptInstall tag s)
    else post tag codeInstall .notQuiet [] s)

/-! ### Steering the domains (R148 to R150) -/

/-- ABORT, RESUME and SET_MODE are refused BUSY or, in UNCONFIGURED, WRONG_MODE (R141). -/
def unlessUnguarded (tag code : Byte) (s : State) (taken : State) : State :=
  unlessBusy tag code s (if s.mode = .unconfigured then post tag code .wrongMode [] s else taken)

/-- ABORT by the domain's state (R39, R148). -/
def reqAbort (tag d : Byte) (s : State) : State :=
  unlessUnguarded tag 0x20 s
    (match domainOf d with
    | none => post tag 0x20 .badIndex [] s
    | some i =>
      match (s.dom i).state with
      | .opened =>
        settleStep false
          (abortUpdate i .requested
            (post tag 0x20 .ok
              ([byte1 i.val] ++ bytes2 (s.dom i).openEpoch.toNat ++ [byte1 (s.dom i).members.length]) s))
      | .idle => post tag 0x20 .nothingOpen [] s
      | .fenced => post tag 0x20 .nothingOpen [] s
      | .rolling => post tag 0x20 .nothingOpen [] s
      | .committing => post tag 0x20 .tooLate [] s
      | .failed => post tag 0x20 .wrongMode [] s
      | .disabled => post tag 0x20 .badIndex [] s)

/-- RESUME by the domain's state (R41, R149). -/
def reqResume (tag d : Byte) (s : State) : State :=
  unlessUnguarded tag 0x21 s
    (match domainOf d with
    | none => post tag 0x21 .badIndex [] s
    | some i =>
      match (s.dom i).state with
      | .fenced => post tag 0x21 .ok [] (s.setDom i { s.dom i with state := .idle })
      | .disabled => post tag 0x21 .badIndex [] s
      | _ => post tag 0x21 .notFenced [] s)

/-- SET_MODE to BYPASS: quiet and no slot BAD (R150). -/
def reqSetBypass (tag : Byte) (s : State) : State :=
  unlessUnguarded tag 0x22 s
    (if s.mode = .bypass then post tag 0x22 .ok [] s
    else if s.quiet && !s.anyBad then post tag 0x22 .ok [] { s with mode := .bypass }
    else post tag 0x22 .notQuiet [] s)

/-- SET_MODE to GUARDING: quiet (R150). -/
def reqSetGuarding (tag : Byte) (s : State) : State :=
  unlessUnguarded tag 0x22 s
    (if s.mode = .guarding then post tag 0x22 .ok [] s
    else if s.quiet then post tag 0x22 .ok [] { s with mode := .guarding }
    else post tag 0x22 .notQuiet [] s)

/-- SET_MODE as a frame carries it: a target other than the two gives BAD_VALUE (R150, R182). -/
def reqSetMode (tag target : Byte) (s : State) : State :=
  if target = 2 then reqSetGuarding tag s
  else if target = 3 then reqSetBypass tag s
  else unlessUnguarded tag 0x22 s (post tag 0x22 .badValue [] s)

/-! ### Events and restarting (R151 to R153) -/

/-- TAKE_EVENT (R151, R174). -/
def reqTakeEvent (tag : Byte) (s : State) : State :=
  match s.events with
  | [] => post tag 0x30 .empty [] s
  | r :: rest => post tag 0x30 .ok r.bytes { s with events := rest }

/-- SET_EVENTS: bits above the nine kinds give BAD_VALUE (R152, R182). -/
def reqSetEvents (tag : Byte) (mask : Word) (s : State) : State :=
  unlessBusy tag 0x31 s
    (if mask.toNat < 512 then post tag 0x31 .ok (bytes2 mask.toNat) { s with mask := mask.setWidth 9 }
    else post tag 0x31 .badValue [] s)

/-- RESTART: pending, and STARTING at LOAD; nothing is posted (R129, R153). -/
def reqRestart (tag : Byte) (s : State) : State :=
  unlessBusy tag codeRestart s
    (settleStep false (enterStarting .restart { s with link := { s.link with pendingOp := .restart tag } }))

/-! ### Frames (R135, R136, R137, R140) -/

/-- A frame begins: the output copy is latched, nothing is received (R135). -/
def beginFrame (s : State) : State :=
  { s with link :=
    { s.link with
      receiving := true
      received := []
      overflow := false
      output := some (s.statusByte :: s.link.result.bytes) } }

/-- The frame state returns to IDLE with the bytes the frame carried (R134, R136). -/
def closeFrame (bytes : List Byte) (s : State) : State :=
  { s with link :=
    { s.link with receiving := false, received := bytes.take 29, overflow := decide (29 < bytes.length) } }

/-- The length of a request in bytes, by its code; none for a byte that is no code (R137). -/
def requestLength (code : Byte) : Option Nat :=
  match code.toNat with
  | 0x00 => some 2
  | 0x01 => some 2
  | 0x02 => some 4
  | 0x03 => some 3
  | 0x04 => some 3
  | 0x05 => some 4
  | 0x10 => some 2
  | 0x11 => some 10
  | 0x12 => some 10
  | 0x13 => some 6
  | 0x14 => some 2
  | 0x20 => some 3
  | 0x21 => some 3
  | 0x22 => some 3
  | 0x30 => some 2
  | 0x31 => some 4
  | 0x3F => some 2
  | _ => none

/-- Executes the request in the received bytes, its code known and its length sufficient (R137, R141). -/
def execute (bs : List Byte) (s : State) : State :=
  let p (k : Nat) : Byte := bs.getD k 0
  let tag := p 1
  match (p 0).toNat with
  | 0x01 => reqGetStatus tag s
  | 0x02 => reqGetDomain tag (p 2) (p 3) s
  | 0x03 => reqGetSlot tag (p 2) s
  | 0x04 => reqGetRegion tag (p 2) s
  | 0x05 => reqGetStaged tag (p 2) (p 3) s
  | 0x10 => reqStageLoad tag s
  | 0x11 => reqStageRegion tag (p 2) (p 3 ++ p 4 ++ p 5) (p 6) (p 7) (p 8 ++ p 9) s
  | 0x12 => reqStageDomain tag (p 2) (p 3) (p 4) (p 5 ++ p 6) (p 7 ++ p 8 ++ p 9) s
  | 0x13 => reqStageLog tag (p 2 ++ p 3 ++ p 4) (p 5) s
  | 0x14 => reqInstall tag s
  | 0x20 => reqAbort tag (p 2) s
  | 0x21 => reqResume tag (p 2) s
  | 0x22 => reqSetMode tag (p 2) s
  | 0x30 => reqTakeEvent tag s
  | 0x31 => reqSetEvents tag (p 2 ++ p 3) s
  | 0x3F => reqRestart tag s
  | _ => s

/-- The received bytes are judged for code and length, and the request is executed or refused (R136). -/
def judgeFrame (bytes : List Byte) (extraBits : Nat) (s : State) : State :=
  match bytes with
  | [] => post 0 0 .badLength [] s
  | code :: rest =>
    match requestLength code with
    | none => post (rest.headD 0) code .badRequest [] s
    | some n =>
      if bytes.length < n ∨ 29 < bytes.length ∨ extraBits ≠ 0 then post (rest.headD 0) code .badLength [] s
      else execute bytes s

/-- The link takes frames: the supply is up and no RESET# is taken (R140). -/
def State.linkListens (s : State) : Bool := s.powered && !s.resetTaken

/-- SSEL# falls (R135, R140): a frame begins, or is ignored while RESET# is taken. -/
def selectFalls (s : State) : State :=
  if !s.powered || s.link.receiving || s.link.ignoring then s
  else if s.resetTaken then { s with link := { s.link with ignoring := true } }
  else beginFrame s

/-- SSEL# rises (R136, R140): the end of an ignored frame has no effect. -/
def selectRises (bytes : List Byte) (body : State → State) (s : State) : State :=
  if s.powered then
    if s.link.ignoring then { s with link := { s.link with ignoring := false } }
    else if s.link.receiving then body (closeFrame bytes s)
    else s
  else s

/-- A request command: the frame in progress ends with exactly this request, or, with none in progress, a whole frame carries
it (log 8). -/
def carryRequest (bytes : List Byte) (body : State → State) (s : State) : State :=
  selectRises bytes body (selectFalls s)

end Sys2Proof.Machine
end

