-- ==== Sys2Proof/Machine/LinkCommands.lean ====
section
/-! DEFINITION. The meanings of the frame events and of the requests. A request command is a frame that carries exactly this
request: it ends the frame in progress, or begins and ends one of its own (log 8). -/

namespace Sys2Proof.Machine

/-- FRAME_BEGIN (R135). -/
def execFrameBegin (s : State) : Host.Outcome State Fault Refusal := answer selectFalls s

/-- FRAME_END with the bytes clocked in and the bits of a partial byte (R136). -/
def execFrameEnd (bytes : List Byte) (extraBits : Nat) (s : State) : Host.Outcome State Fault Refusal :=
  answer (selectRises bytes (judgeFrame bytes extraBits)) s

/-- NOP changes no state but the frame's own (R138). -/
def execNop (tag : Byte) (s : State) : Host.Outcome State Fault Refusal :=
  answer (carryRequest [0x00, tag] id) s

/-- GET_STATUS (R142). -/
def execGetStatus (tag : Byte) (s : State) : Host.Outcome State Fault Refusal :=
  answer (carryRequest [0x01, tag] (reqGetStatus tag)) s

/-- GET_DOMAIN (R143). -/
def execGetDomain (tag d p : Byte) (s : State) : Host.Outcome State Fault Refusal :=
  answer (carryRequest [0x02, tag, d, p] (reqGetDomain tag d p)) s

/-- GET_SLOT (R144). -/
def execGetSlot (tag n : Byte) (s : State) : Host.Outcome State Fault Refusal :=
  answer (carryRequest [0x03, tag, n] (reqGetSlot tag n)) s

/-- GET_REGION (R145). -/
def execGetRegion (tag r : Byte) (s : State) : Host.Outcome State Fault Refusal :=
  answer (carryRequest [0x04, tag, r] (reqGetRegion tag r)) s

/-- GET_STAGED with kind REGION (R145). -/
def execGetStagedRegion (tag idx : Byte) (s : State) : Host.Outcome State Fault Refusal :=
  answer (carryRequest [0x05, tag, 0, idx] (reqGetStagedRegion tag idx)) s

/-- GET_STAGED with kind DOMAIN (R145). -/
def execGetStagedDomain (tag idx : Byte) (s : State) : Host.Outcome State Fault Refusal :=
  answer (carryRequest [0x05, tag, 1, idx] (reqGetStagedDomain tag idx)) s

/-- GET_STAGED with kind LOG (R145). -/
def execGetStagedLog (tag idx : Byte) (s : State) : Host.Outcome State Fault Refusal :=
  answer (carryRequest [0x05, tag, 2, idx] (reqGetStagedLog tag idx)) s

/-- STAGE_LOAD (R146). -/
def execStageLoad (tag : Byte) (s : State) : Host.Outcome State Fault Refusal :=
  answer (carryRequest [0x10, tag] (reqStageLoad tag)) s

/-- Two bytes of a word, most significant first (R182). -/
def wordBytes (w : Word) : List Byte := [highByte w, lowByte w]

/-- Three bytes of a 24-bit parameter, most significant first (R182). -/
def longBytes (x : BitVec 24) : List Byte := [x.extractLsb' 16 8, x.extractLsb' 8 8, x.extractLsb' 0 8]

/-- STAGE_REGION (R146). -/
def execStageRegion (tag r : Byte) (base : BitVec 24) (flags size : Byte) (count : Word) (s : State) :
    Host.Outcome State Fault Refusal :=
  answer (carryRequest ([0x11, tag, r] ++ longBytes base ++ [flags, size] ++ wordBytes count)
    (reqStageRegion tag r base flags size count)) s

/-- STAGE_DOMAIN (R146). -/
def execStageDomain (tag d flags quota : Byte) (deadline : Word) (commit : BitVec 24) (s : State) :
    Host.Outcome State Fault Refusal :=
  answer (carryRequest ([0x12, tag, d, flags, quota] ++ wordBytes deadline ++ longBytes commit)
    (reqStageDomain tag d flags quota deadline commit)) s

/-- STAGE_LOG (R146). -/
def execStageLog (tag : Byte) (len : BitVec 24) (verify : Byte) (s : State) : Host.Outcome State Fault Refusal :=
  answer (carryRequest ([0x13, tag] ++ longBytes len ++ [verify]) (reqStageLog tag len verify)) s

/-- INSTALL (R147). -/
def execInstall (tag : Byte) (s : State) : Host.Outcome State Fault Refusal :=
  answer (carryRequest [0x14, tag] (reqInstall tag)) s

/-- ABORT (R39, R148). -/
def execAbort (tag d : Byte) (s : State) : Host.Outcome State Fault Refusal :=
  answer (carryRequest [0x20, tag, d] (reqAbort tag d)) s

/-- RESUME (R41, R149). -/
def execResume (tag d : Byte) (s : State) : Host.Outcome State Fault Refusal :=
  answer (carryRequest [0x21, tag, d] (reqResume tag d)) s

/-- SET_MODE to BYPASS (R150). -/
def execSetModeBypass (tag : Byte) (s : State) : Host.Outcome State Fault Refusal :=
  answer (carryRequest [0x22, tag, 3] (reqSetBypass tag)) s

/-- SET_MODE to GUARDING (R150). -/
def execSetModeGuarding (tag : Byte) (s : State) : Host.Outcome State Fault Refusal :=
  answer (carryRequest [0x22, tag, 2] (reqSetGuarding tag)) s

/-- TAKE_EVENT (R151). -/
def execTakeEvent (tag : Byte) (s : State) : Host.Outcome State Fault Refusal :=
  answer (carryRequest [0x30, tag] (reqTakeEvent tag)) s

/-- SET_EVENTS (R152). -/
def execSetEvents (tag : Byte) (mask : Word) (s : State) : Host.Outcome State Fault Refusal :=
  answer (carryRequest ([0x31, tag] ++ wordBytes mask) (reqSetEvents tag mask)) s

/-- RESTART (R153). -/
def execRestart (tag : Byte) (s : State) : Host.Outcome State Fault Refusal :=
  answer (carryRequest [0x3F, tag] (reqRestart tag)) s

end Sys2Proof.Machine
end

