-- ==== Sys2Proof/Machine/MemorySide.lean ====
section
/-! DEFINITION. The meanings of the completions of stream accesses. MEMORY_ACCESS_COMPLETE completes whatever stream access is
in progress; each of the others does so when the access brings about the end it names (log 6). -/

namespace Sys2Proof.Machine

/-- MEMORY_ACCESS_COMPLETE: a word access of a stream completes (R107). -/
def execMemoryAccessComplete (flaw : Option Word) (s : State) : Host.Outcome State Fault Refusal :=
  answer (completeWhen (fun a => decide (a.claimant ≠ .host)) flaw) s

/-- The word ends the copy: at its end, at a word that is not blank, or at a media fault (R25, R26, R96). -/
def copyEnds (s : State) (data : Word) : Bool :=
  match s.copy with
  | none => false
  | some c =>
    match copyNext s c data with
    | .more _ => false
    | .done => true
    | .notBlank => true
    | .fault _ => true

/-- COPY_COMPLETE (R25). -/
def execCopyComplete (flaw : Option Word) (s : State) : Host.Outcome State Fault Refusal :=
  answer (completeWhen (fun a => a.liveFor .copy && copyEnds s (accessData flaw s.memory a)) flaw) s

/-- EPOCH_WRITE_COMPLETE: the epoch write, or with verify on its read-back (R30, R100). -/
def execEpochWriteComplete (flaw : Option Word) (s : State) : Host.Outcome State Fault Refusal :=
  answer (completeWhen (fun a => a.liveFor .commit && (!a.write || !s.layout.verify)) flaw) s

/-- RETIRE_COMPLETE: the tag write, or with verify on its read-back (R60, R97). -/
def execRetireComplete (flaw : Option Word) (s : State) : Host.Outcome State Fault Refusal :=
  answer (completeWhen (fun a => a.liveFor .retire && (!a.write || !s.layout.verify)) flaw) s

/-- The word ends the restore of a domain's slot at its tag (R88, R99). -/
def restoreEnds (s : State) (d : Fin 4) (data : Word) : Bool :=
  match (s.dom d).stream with
  | none => false
  | some st =>
    match st.slot with
    | none => false
    | some i =>
      match restoreNext (s.slotRegion i).size s.layout.verify st.pos st.back data with
      | .slotDone => true
      | .tagFault => true
      | .more _ _ => false
      | .recordFault => false

/-- RESTORE_SLOT_COMPLETE (R88). -/
def execRestoreSlotComplete (flaw : Option Word) (s : State) : Host.Outcome State Fault Refusal :=
  answer (completeWhen (fun a =>
    domainIndices.any fun d => a.liveFor (.restore d) && restoreEnds s d (accessData flaw s.memory a)) flaw) s

/-- The word is the last LOAD reads (R121). -/
def loadEnds (s : State) (data : Word) : Bool :=
  match s.recovery.pos with
  | .copies ws =>
    decide (256 ≤ ws.length + 1) &&
      (match chooseCopy (readCopy s.logStart ((ws ++ [data]).take 128)) (readCopy s.logStart ((ws ++ [data]).drop 128)) with
      | none => true
      | some c => c.layout.enabledDomains.isEmpty)
  | .epochs ds => decide (ds.length = 1)
  | _ => false

/-- LOAD_COMPLETE (R121, R127). -/
def execLoadComplete (flaw : Option Word) (s : State) : Host.Outcome State Fault Refusal :=
  answer (completeWhen (fun a => a.liveFor .recovery && loadEnds s (accessData flaw s.memory a)) flaw) s

/-- The live slot just read would be listed for restore (R122). -/
def scanLists (s : State) (d : Fin 4) (epoch loc chk sum : Word) : Bool :=
  decide (checkWord epoch loc sum = chk) && decide (epoch ≠ s.recovery.epochs[d])
    && decide (epoch = s.recovery.epochs[d] + 1) && !s.recovery.lists (locatorRegion loc) (locatorRecord loc)

/-- The word ends SCAN's work on a slot: a zero tag, a slot listed, or the tag clear done (R122, R123). -/
def scanEnds (s : State) (data : Word) : Bool :=
  match s.recovery.pos with
  | .scan pos back =>
    match pos with
    | .tag => decide (data = 0)
    | .image d epoch loc chk k sum =>
      !decide (k + 1 < (s.layout.regions[locatorRegion loc]).size) && scanLists s d epoch loc chk (sum + data)
    | .clear _ => back || !s.layout.verify
    | _ => false
  | _ => false

/-- SCAN_SLOT_JUDGED (R122). -/
def execScanSlotJudged (flaw : Option Word) (s : State) : Host.Outcome State Fault Refusal :=
  answer (completeWhen (fun a => a.liveFor .recovery && scanEnds s (accessData flaw s.memory a)) flaw) s

/-- The word ends RESTORE's work on a slot (R124, R125). -/
def recoveryRestoreEnds (s : State) (data : Word) : Bool :=
  match s.recovery.pos with
  | .restore it pos back =>
    match restoreNext it.size s.layout.verify pos back data with
    | .more _ _ => false
    | _ => true
  | _ => false

/-- RECOVERY_RESTORE_COMPLETE (R124). -/
def execRecoveryRestoreComplete (flaw : Option Word) (s : State) : Host.Outcome State Fault Refusal :=
  answer (completeWhen (fun a => a.liveFor .recovery && recoveryRestoreEnds s (accessData flaw s.memory a)) flaw) s

/-- The present write of the install stream is done with this word: written with verify off, or read back right. -/
def installWordDone (s : State) (st : InstallStream) (data : Word) : Bool :=
  if st.back then decide (data = (installWrite s st).2) else !s.staging.verify

/-- The word ends step TAGS (R160). -/
def installTagsEnd (s : State) (data : Word) : Bool :=
  match s.install with
  | none => false
  | some st =>
    match st.step with
    | .tags i => decide (s.staging.geometry.slots ≤ i + 1) && installWordDone s st data
    | _ => false

/-- INSTALL_TAGS_COMPLETE (R160). -/
def execInstallTagsComplete (flaw : Option Word) (s : State) : Host.Outcome State Fault Refusal :=
  answer (completeWhen (fun a => a.liveFor .install && installTagsEnd s (accessData flaw s.memory a)) flaw) s

/-- The word ends step COPY (R161). -/
def installCopyEnd (s : State) (data : Word) : Bool :=
  match s.install with
  | none => false
  | some st =>
    match st.step with
    | .copy k => decide (128 ≤ k + 1) && installWordDone s st data
    | _ => false

/-- INSTALL_COPY_COMPLETE (R161). -/
def execInstallCopyComplete (flaw : Option Word) (s : State) : Host.Outcome State Fault Refusal :=
  answer (completeWhen (fun a => a.liveFor .install && installCopyEnd s (accessData flaw s.memory a)) flaw) s

/-- The install stream reads its last epoch word (R162). -/
def installEpochsEnd (s : State) : Bool :=
  match s.install with
  | none => false
  | some st =>
    match st.step with
    | .epochs ds => decide (ds.length = 1)
    | _ => false

/-- INSTALL_EPOCHS_COMPLETE (R162). -/
def execInstallEpochsComplete (flaw : Option Word) (s : State) : Host.Outcome State Fault Refusal :=
  answer (completeWhen (fun a => a.liveFor .install && installEpochsEnd s) flaw) s

end Sys2Proof.Machine
end

