-- ==== Sys2Proof/Machine/Dispatch.lean ====
section
/-! DEFINITION. The effect of every command on everything but the queue: one arm per constructor, one call of its meaning. -/

namespace Sys2Proof.Machine

/-- The effect of a command. -/
def exec (i : Instr) (s : State) : Host.Outcome State Fault Refusal :=
  match i with
  | .powerUp straps pfw reset => Sys2Proof.Machine.execPowerUp straps pfw reset s
  | .tick => Sys2Proof.Machine.execTick s
  | .settleEnd => Sys2Proof.Machine.execSettleEnd s
  | .deadlineExpiry d => Sys2Proof.Machine.execDeadlineExpiry d s
  | .resetAssert straps => Sys2Proof.Machine.execResetAssert straps s
  | .resetRelease straps => Sys2Proof.Machine.execResetRelease straps s
  | .pfwAssert straps => Sys2Proof.Machine.execPfwAssert straps s
  | .pfwRelease straps => Sys2Proof.Machine.execPfwRelease straps s
  | .hostRead addr lanes alt => Sys2Proof.Machine.execHostRead addr lanes alt s
  | .hostWrite addr lanes alt data => Sys2Proof.Machine.execHostWrite addr lanes alt data s
  | .hostCycleEnd => Sys2Proof.Machine.execHostCycleEnd s
  | .hostAccessComplete flaw => Sys2Proof.Machine.execHostAccessComplete flaw s
  | .memoryAccessComplete flaw => Sys2Proof.Machine.execMemoryAccessComplete flaw s
  | .copyComplete flaw => Sys2Proof.Machine.execCopyComplete flaw s
  | .epochWriteComplete flaw => Sys2Proof.Machine.execEpochWriteComplete flaw s
  | .retireComplete flaw => Sys2Proof.Machine.execRetireComplete flaw s
  | .restoreSlotComplete flaw => Sys2Proof.Machine.execRestoreSlotComplete flaw s
  | .loadComplete flaw => Sys2Proof.Machine.execLoadComplete flaw s
  | .scanSlotJudged flaw => Sys2Proof.Machine.execScanSlotJudged flaw s
  | .recoveryRestoreComplete flaw => Sys2Proof.Machine.execRecoveryRestoreComplete flaw s
  | .installTagsComplete flaw => Sys2Proof.Machine.execInstallTagsComplete flaw s
  | .installCopyComplete flaw => Sys2Proof.Machine.execInstallCopyComplete flaw s
  | .installEpochsComplete flaw => Sys2Proof.Machine.execInstallEpochsComplete flaw s
  | .frameBegin => Sys2Proof.Machine.execFrameBegin s
  | .frameEnd bytes extraBits => Sys2Proof.Machine.execFrameEnd bytes extraBits s
  | .nop tag => Sys2Proof.Machine.execNop tag s
  | .getStatus tag => Sys2Proof.Machine.execGetStatus tag s
  | .getDomain tag d p => Sys2Proof.Machine.execGetDomain tag d p s
  | .getSlot tag n => Sys2Proof.Machine.execGetSlot tag n s
  | .getRegion tag r => Sys2Proof.Machine.execGetRegion tag r s
  | .getStagedRegion tag idx => Sys2Proof.Machine.execGetStagedRegion tag idx s
  | .getStagedDomain tag idx => Sys2Proof.Machine.execGetStagedDomain tag idx s
  | .getStagedLog tag idx => Sys2Proof.Machine.execGetStagedLog tag idx s
  | .stageLoad tag => Sys2Proof.Machine.execStageLoad tag s
  | .stageRegion tag r base flags size count => Sys2Proof.Machine.execStageRegion tag r base flags size count s
  | .stageDomain tag d flags quota deadline commit => Sys2Proof.Machine.execStageDomain tag d flags quota deadline commit s
  | .stageLog tag len verify => Sys2Proof.Machine.execStageLog tag len verify s
  | .install tag => Sys2Proof.Machine.execInstall tag s
  | .abort tag d => Sys2Proof.Machine.execAbort tag d s
  | .resume tag d => Sys2Proof.Machine.execResume tag d s
  | .setModeBypass tag => Sys2Proof.Machine.execSetModeBypass tag s
  | .setModeGuarding tag => Sys2Proof.Machine.execSetModeGuarding tag s
  | .takeEvent tag => Sys2Proof.Machine.execTakeEvent tag s
  | .setEvents tag mask => Sys2Proof.Machine.execSetEvents tag mask s
  | .restart tag => Sys2Proof.Machine.execRestart tag s
  | .supplyLoss => Sys2Proof.Machine.execSupplyLoss s

end Sys2Proof.Machine
end

