-- ==== Sys2Proof/Safety.lean ====
section
/-! DEFINITION. What the statements speak in: invariants of the state, the state a request or a grant decision leaves, and the
bytes that carry each request. -/

namespace Sys2Proof.Machine

/-! ### The Memory Port -/

/-- `t` is `u` after a grant decision (R107): nothing but the access, the pointer and the model's choice counter has changed; an
access in progress stays and a stopped port begins none (R104, R113); otherwise one of the standing claims has begun its
access, or none stands and none has begun. -/
structure Granted (u t : State) : Prop where
  only : t = { u with
    memPort := { u.memPort with access := t.memPort.access, pointer := t.memPort.pointer }, arrivals := t.arrivals }
  kept : ∀ a, u.memPort.access = some a → t.memPort.access = some a
  held : u.memPort.stopped = true → t.memPort.access = u.memPort.access
  idle : u.memPort.access = none → u.memPort.stopped = false → u.standing = [] → t.memPort.access = none
  begun : u.memPort.access = none → u.memPort.stopped = false → u.standing ≠ [] →
    ∃ c ∈ u.standing, t.memPort.access = accessOf u c

/-- No claim stands while the Memory Port could grant it (R107): between two steps the port is never idle with work ready. -/
def State.Settled (s : State) : Prop :=
  s.memPort.access = none → s.memPort.stopped = false → s.standing = []

/-- An access of the recovery is in progress only in STARTING, one of the install only in INSTALLING, and either also in the
FROZEN that cut it; the install stream stands only in INSTALLING and FROZEN with a return mode of its own, and a FROZEN part's
Memory Port is stopped (R104, R112, R113, R159). -/
def State.ClaimantsFit (s : State) : Prop :=
  (∀ a, s.memPort.access = some a → a.orphan = false →
    (a.claimant = .recovery → s.mode = .starting ∨ s.mode = .frozen)
      ∧ (a.claimant = .install → s.mode = .installing ∨ s.mode = .frozen))
  ∧ (∀ st, s.install = some st →
      (s.mode = .installing ∨ s.mode = .frozen) ∧ (st.returnMode = .guarding ∨ st.returnMode = .bypass))
  ∧ (s.mode = .frozen → s.memPort.stopped = true)

/-- The flaw of a command that completes a memory access; none for the other commands. -/
def completionFlaw : Instr → Option (Option Word)
  | .hostAccessComplete f => some f
  | .memoryAccessComplete f => some f
  | .copyComplete f => some f
  | .epochWriteComplete f => some f
  | .retireComplete f => some f
  | .restoreSlotComplete f => some f
  | .loadComplete f => some f
  | .scanSlotJudged f => some f
  | .recoveryRestoreComplete f => some f
  | .installTagsComplete f => some f
  | .installCopyComplete f => some f
  | .installEpochsComplete f => some f
  | _ => none

/-- The place of a claimant in the order of a grant decision (R107, R109, R110, R112): a lower number goes first. Restore
streams and the install count from the position after the pointer. -/
def grantRank (boost : Bool) (pointer : Fin 5) : Claimant → Nat
  | .host => 0
  | .recovery => 1
  | .copy => 2
  | .commit => 3
  | .retire => if boost then 4 else 10
  | .restore d => 5 + (d.val + 4 - pointer.val) % 5
  | .install => 5 + (8 - pointer.val) % 5

/-- A read of a claimant at a word address: both lanes (R103). -/
def Access.reads (a : Access) (addr : Nat) : Prop :=
  a.write = false ∧ a.addr = BitVec.ofNat 19 addr ∧ a.lanes = bothLanes

/-- A stream's write of a word at a word address, both lanes (R103), or, once written, the read-back of that address (R94). -/
def Access.verifies (a : Access) (back : Bool) (addr : Nat) (w : Word) : Prop :=
  if back then a.reads addr else a.write = true ∧ a.addr = BitVec.ofNat 19 addr ∧ a.lanes = bothLanes ∧ a.data = w

/-- Word k of slot i as a number (R44). -/
def State.slotOffset (s : State) (i k : Nat) : Nat := logStartOf s.loc + (260 + i * s.geometry.stride + k)

/-- Word k of a record as a number (R3). -/
def RegionEntry.wordAt (e : RegionEntry) (record k : Nat) : Nat := e.base.toNat + e.size * record + k

/-- The access of a restore of slot i at a position, for a record of a region (R87, R124). -/
def State.Restores (s : State) (a : Access) (e : RegionEntry) (i record : Nat) (pos : RestorePos) (back : Bool) : Prop :=
  match pos with
  | .read k => a.reads (s.slotOffset i (4 + k))
  | .word k w => a.verifies back (e.wordAt record k) w
  | .tag => a.verifies back (s.slotOffset i 0) 0

/-- The access is the one its claimant's work has come to in this state, with its address, its word and its lanes: the host's
own or its redirected word (R71, R73, R76); the copy's record, image, epoch, locator, check and tag words (R48, R57, R178,
R179); the epoch word with the open epoch (R30, R46); image word, record word and tag of a restore (R87, R124); the tag a
retire clears (R59); a tag or a configuration word of an INSTALL and the epoch words it reads (R160 to R162); the words LOAD
and SCAN read and clear (R120 to R122). -/
def State.Needs (s : State) (a : Access) : Prop :=
  a.orphan = false ∧
  match a.claimant with
  | .host =>
    let store : Prop := a.write = true ∧ a.addr = s.port.cycle.addr ∧ a.lanes = s.port.cycle.lanes ∧ a.data = s.port.cycle.data
    (s.port.state = .atMemory ∧
      if s.port.cycle.write then store
      else match s.port.disp with
        | some (.redirect _ image) => a.reads image.toNat
        | _ => a.reads s.port.cycle.addr.toNat)
    ∨ (s.port.state = .deciding ∧ (s.port.stage = .store ∨ s.port.stage = .commitStore) ∧ store)
  | .copy => ∃ c, s.copy = some c ∧
    let e : PoolEntry := s.slot c.slot
    let locator : Word := BitVec.ofNat 16 (e.region.val * 4096 + e.record % 4096)
    match c.pos with
    | .read k => a.reads ((s.layout.regions[e.region]).wordAt e.record k)
    | .image k w => a.verifies c.back (s.slotOffset c.slot (4 + k)) w
    | .epoch => a.verifies c.back (s.slotOffset c.slot 1) e.epoch
    | .locator => a.verifies c.back (s.slotOffset c.slot 2) locator
    | .check => a.verifies c.back (s.slotOffset c.slot 3) (~~~ (e.epoch + locator + c.sum))
    | .tag => a.verifies c.back (s.slotOffset c.slot 0) (0xA600 + BitVec.ofNat 16 e.domain.val)
  | .commit => ∃ c, s.commit = some c ∧
    a.verifies c.back (logStartOf s.loc + (256 + c.domain.val)) ((s.dom c.domain).committed + 1)
  | .restore d => ∃ st i, (s.dom d).stream = some st ∧ st.slot = some i ∧
    s.Restores a (s.layout.regions[(s.slot i).region]) i (s.slot i).record st.pos st.back
  | .retire => ∃ i rest, s.retireQueue = i :: rest ∧ a.verifies s.retireBack (s.slotOffset i 0) 0
  | .install => ∃ st, s.install = some st ∧
    match st.step with
    | .tags i => a.verifies st.back (logStartOf s.loc + (260 + i * s.staging.geometry.stride)) 0
    | .copy k => a.verifies st.back (logStartOf s.loc + (k + if st.target = .a then 0 else 128))
        ((copyWords st.sequence s.staging).getD k 0)
    | .epochs ds => ∃ d rest, ds = d :: rest ∧ a.reads (logStartOf s.loc + (256 + d.val))
  | .recovery => s.mode = .starting ∧
    let header (k : Nat) : Prop := a.reads (s.slotOffset s.recovery.scanPos k)
    match s.recovery.pos with
    | .idle => False
    | .copies ws => a.reads (logStartOf s.loc + ws.length)
    | .epochs ds => ∃ d rest, ds = d :: rest ∧ a.reads (logStartOf s.loc + (256 + d.val))
    | .scan pos back =>
      match pos with
      | .tag => header 0
      | .epoch _ => header 1
      | .locator _ _ => header 2
      | .check _ _ _ => header 3
      | .image _ _ _ _ k _ => header (4 + k)
      | .clear _ => a.verifies back (s.slotOffset s.recovery.scanPos 0) 0
    | .restore it pos back => s.Restores a (s.layout.regions[it.region]) it.slot it.record pos back

/-- The claimant has a word access ready (R106, R112). -/
def State.Ready (s : State) (c : Claimant) : Prop :=
  match c with
  | .host => s.port.state = .atMemory
    ∨ (s.port.state = .deciding ∧ (s.port.stage = .store ∨ s.port.stage = .commitStore))
  | .copy => s.copy ≠ none
  | .commit => s.commit ≠ none
  | .restore d => ∃ st i, (s.dom d).stream = some st ∧ st.slot = some i
  | .retire => s.retireQueue ≠ []
  | .install => ∃ st, s.install = some st ∧ st.step ≠ .epochs []
  | .recovery => s.mode = .starting ∧ s.recovery.pos ≠ .idle ∧ s.recovery.pos ≠ .epochs []

/-- No claim but this restore stream's and the retire stream's can stand: the Port asks nothing of the memory, and no copy,
commit, install, boost or other restore stream is there (R106). -/
def State.OnlyRestores (s : State) (d : Fin 4) : Prop :=
  (s.port.state = .vacant ∨ s.port.state = .held ∨ s.port.state = .closing) ∧ s.copy = none ∧ s.commit = none
    ∧ s.install = none ∧ s.memPort.boost = false ∧ s.memPort.stopped = false ∧ ∀ e, e ≠ d → (s.dom e).stream = none

/-- A stream's access that reads one word. -/
def readOf (c : Claimant) (addr : Nat) : Access :=
  { claimant := c, write := false, addr := BitVec.ofNat 19 addr, lanes := { low := true, high := true }, data := 0, orphan := false }

/-- A stream's access that writes one word, both lanes. -/
def writeOf (c : Claimant) (addr : Nat) (w : Word) : Access :=
  { claimant := c, write := true, addr := BitVec.ofNat 19 addr, lanes := { low := true, high := true }, data := w, orphan := false }

/-! ### The Host Port -/

/-- No new cycle waits at a vacant Port (R65). -/
def State.NoCycleWaits (s : State) : Prop := s.port.state = .vacant → s.port.waiting = none

/-- The Host Port after the present access has been ended with a disposition (R64, R65). -/
def HostPort.ended (p : HostPort) (d : Disposition) : HostPort :=
  { p with state := if p.early then .vacant else .closing, disp := some d, stage := .none, early := false }

/-- A Port that has just latched a cycle, with its classification, and stands in a state with a disposition (R63, R64). -/
def HostPort.latched (state : PortState) (c : BusCycle) (cls : Option Classification) (d : Option Disposition)
    (g : WriteStage) : HostPort :=
  { state := state, cycle := c, cls := cls, disp := d, stage := g, early := false, waiting := none }

/-- A read cycle on the host bus. -/
def readCycle (addr : Addr) (lanes : Lanes) (alt : Bool) : BusCycle :=
  { write := false, addr := addr, lanes := lanes, alt := alt, data := 0 }

/-- A write cycle on the host bus. -/
def writeCycle (addr : Addr) (lanes : Lanes) (alt : Bool) (data : Word) : BusCycle :=
  { write := true, addr := addr, lanes := lanes, alt := alt, data := data }

/-- The new commit word value: a write merged lane by lane with the old value (R12). -/
def BusCycle.merged (c : BusCycle) (old : Word) : Word :=
  (if c.lanes.high then c.data.extractLsb' 8 8 else old.extractLsb' 8 8)
    ++ (if c.lanes.low then c.data.extractLsb' 0 8 else old.extractLsb' 0 8)

/-- The guard accepts the new commit word value over the old one (R11). -/
def GuardMode.Accepts (g : GuardMode) (old new : Word) : Prop :=
  match g with
  | .any => True
  | .advance => new = old + 1
  | .increase => old.toNat < new.toNat
  | .change => new ≠ old

/-- The memory access of a host read at an address: both lanes (R71). -/
def hostReadAt (a : Addr) : Access :=
  { claimant := .host, write := false, addr := a, lanes := bothLanes, data := 0, orphan := false }

/-- The memory access that stores a host write: the lanes the host enabled (R76). -/
def hostStoreOf (c : BusCycle) : Access :=
  { claimant := .host, write := true, addr := c.addr, lanes := c.lanes, data := c.data, orphan := false }

/-- A command reaches a vacant Port of a part with supply, in a mode that does not hold it. -/
def State.PortOpen (s : State) : Prop := s.powered = true ∧ s.port.state = .vacant

/-! ### Completions -/

/-- An access of this claimant is in progress on a part with supply, and its claimant still stands (R103, R104). -/
def State.InProgress (s : State) (c : Claimant) (a : Access) : Prop :=
  s.powered = true ∧ s.memPort.access = some a ∧ a.claimant = c ∧ a.orphan = false

/-- The state in which a completed access is handed on: no access in progress, and a write's enabled lanes stored (R103); with a
flaw the lanes hold the flaw's word (log 7). -/
def State.completed (f : Option Word) (a : Access) (s : State) : State :=
  { s with
    memory := if a.write then Memory.setWord s.memory a.addr a.lanes (f.getD a.data) else s.memory
    memPort := { s.memPort with access := none } }

/-- The word a read returns: the stored word, or the flaw's (R103, log 7). -/
def State.wordRead (f : Option Word) (a : Access) (s : State) : Word := f.getD (Memory.word s.memory a.addr)

/-- A stream's word is done: written with verify off, or with verify on written before and now read back right (R94). -/
def State.WordDone (verify back : Bool) (f : Option Word) (a : Access) (w : Word) (s : State) : Prop :=
  (verify = false ∧ back = false ∧ a.write = true)
  ∨ (verify = true ∧ back = true ∧ a.write = false ∧ s.wordRead f a = w)

/-- A stream's word is a media fault: with verify on written before and now read back wrong (R94). -/
def State.WordFails (verify back : Bool) (f : Option Word) (a : Access) (w : Word) (s : State) : Prop :=
  verify = true ∧ back = true ∧ a.write = false ∧ s.wordRead f a ≠ w

/-- The end of the present access leaves no new cycle without a Port (R65). -/
def HostPort.NoneFollows (p : HostPort) : Prop := p.early = true → p.waiting = none

/-- No write waits for a free slot, and no commit attempt for backlog (R24, R29). -/
def State.NoWriteWaits (s : State) : Prop := s.port.stage ≠ .slot ∧ s.port.stage ≠ .backlog

/-- The Host Port after an entry into STARTING or FROZEN (R70), the access in progress at the entry known. -/
structure HostPort.Settled (p : HostPort) (access : Option Access) (q : HostPort) : Prop where
  apart : p.state = .vacant ∨ p.state = .held ∨ p.state = .closing → q = p
  ended : p.state = .deciding → q = { p with disp := some .ended, stage := .none }
  notBegun : p.state = .atMemory → (∀ a, access = some a → a.claimant = .host → a.orphan = true) →
    q = { p with state := .held, cls := none, disp := none }
  begun : ∀ a, p.state = .atMemory → access = some a → a.claimant = .host → a.orphan = false → q = p

/-! ### Rollback -/

/-- The slots of a list that are in one state put in another, their other fields kept. -/
def movedPool (old new : SlotState) (slots : List Nat) (pool : List PoolEntry) : List PoolEntry :=
  pool.mapIdx fun i e => if i ∈ slots ∧ e.state = old then { e with state := new } else e

/-- A domain's record after an abort whose rollback has begun (R33, R85, R86): ROLLING, the timer stopped, the members newest
first taken as the restore list, the newest off the list and in progress. -/
def Runtime.rolledBack (r : Runtime) (cause : Cause) : Runtime :=
  { r with
    state := .rolling
    timer := 0
    members := []
    restoreList := r.members.reverse.tail
    stream := some { epoch := r.committed + 1, cause := cause, slot := r.members.reverse.head?, pos := .read 0, back := false,
                     restored := 0 } }

/-! ### The end of STARTING -/

/-- The state after STARTING has ended in GUARDING (R126), from the state whose recovery record has worked off its list; the held
access and the grant decision are still to come. -/
def State.started (u : State) : State :=
  let r := u.recovery
  let failed : List (Fin 4) := domainIndices.filter fun d => (u.cfg d).enabled && r.failedDomains[d]
  { u with
    mode := .guarding
    recovery := { r with restoredDomains := Vector.replicate 4 false, pos := .idle }
    domains := Vector.ofFn fun d : Fin 4 =>
      if (u.cfg d).enabled then
        { state :=
            if r.failedDomains[d] then .failed else if (u.cfg d).fence && r.restoredDomains[d] then .fenced else .idle
          committed := r.epochs[d], members := [], backlog := 0, timer := 0, restoreList := [], stream := none }
      else .discarded
    pool := r.outcomes.map fun o => match o with
      | .bad => { state := .bad, domain := 0, epoch := 0, region := 0, record := 0 }
      | .stranded x => { state := .stranded, domain := x.domain, epoch := x.epoch, region := x.region, record := x.record }
      | _ => { state := .free, domain := 0, epoch := 0, region := 0, record := 0 }
    freeQueue := (List.range r.outcomes.length).filter fun i =>
      decide (r.outcomes[i]? = some .free ∨ r.outcomes[i]? = some .listed)
    slotIndex := r.outcomes.zipIdx.filterMap fun q => match q.1 with
      | .stranded x => some { region := x.region, record := x.record, slot := q.2 }
      | _ => none
    retireQueue := []
    events := (record (.recovered r.startKind r.counts)
      (failed.foldl (fun t d => record (.domainFailed d (r.epochs[d] + 1)) t) u)).events
    link := match u.link.pendingOp with
      | .none => u.link
      | .restart tag => { u.link with
          pendingOp := .none, result := { tag := tag, code := 0x3F, result := .ok, data := [] } }
      | .install tag => { u.link with
          pendingOp := .none, result := { tag := tag, code := 0x14, result := .none, data := [] } } }

/-- `t` is `u`, whose mode has just ended a hold, after the Host Port has met the end (R68, R70): an ENDED access closes; a HELD
one, where no rule of the mode stops it, goes to the memory; the grant decision follows. -/
structure State.Released (u t : State) : Prop where
  apart : u.port.state = .vacant ∨ u.port.state = .closing ∨ u.port.state = .atMemory → Granted u t
  ended : u.port.state = .deciding → u.port.disp = some .ended → u.port.NoneFollows →
    Granted { u with port := u.port.ended .ended } t
  held : u.port.state = .held → u.port.cycle.write = false ∨ u.port.cycle.lanes.low = true ∨ u.port.cycle.lanes.high = true →
    u.mode = .unconfigured ∨ classify u u.port.cycle.addr = .uncovered →
    Granted { u with port := { u.port with
      state := .atMemory, cls := some (classify u u.port.cycle.addr), disp := some .pass, stage := .none } } t

/-- RESTORE goes on from a recovery record (R124, R126): to the listed slot of the highest number, or, with nothing left, to the
end of STARTING. -/
structure State.RestoresOn (u t : State) : Prop where
  next : ∀ rest it, u.recovery.list = rest ++ [it] →
    Granted { u with recovery := { u.recovery with list := rest, pos := .restore it (.read 0) false } } t
  last : u.recovery.list = [] → u.started.Released t

/-! ### Ranges -/

/-- Every field of a layout is in its range (R2, R9). -/
def Layout.InRange (l : Layout) : Prop :=
  (∀ r : Fin 16, 1 ≤ l.regions[r].size ∧ l.regions[r].size ≤ 64 ∧ 1 ≤ l.regions[r].count ∧ l.regions[r].count ≤ 4096)
  ∧ ∀ d : Fin 4, 1 ≤ l.domains[d].quota ∧ l.domains[d].quota ≤ 128

/-- A log length that a layout can have (R43, R146). -/
def Layout.LogInRange (l : Layout) : Prop := 264 ≤ l.logLength ∧ l.logLength ≤ 0x80000

/-- The active, the staged and the chosen layout are in range, with a log length that is 0 while the tables are cleared (R2, R9,
R43, R118, R134). -/
def State.LayoutsInRange (s : State) : Prop :=
  s.layout.InRange ∧ (s.layout.logLength = 0 ∨ s.layout.LogInRange)
    ∧ s.staging.InRange ∧ (s.staging.logLength = 0 ∨ s.staging.LogInRange)
    ∧ ∀ c, s.recovery.chosen = some c → c.layout.InRange ∧ c.layout.LogInRange

/-- The buffers keep their sizes: at most 16 events (R168), 24 data bytes (R138) and 29 received bytes (R134). -/
def State.BuffersFit (s : State) : Prop :=
  s.events.length ≤ 16 ∧ s.link.result.data.length ≤ 24 ∧ s.link.received.length ≤ 29

/-! ### The working collections -/

/-- The pool has the slot, in this state (R51). -/
def State.SlotIs (s : State) (i : Nat) (state : SlotState) : Prop := i < s.pool.length ∧ (s.slot i).state = state

/-- The slot states in which the Slot Index holds an entry (R51, R55). -/
def SlotState.holdsRecord : SlotState → Bool
  | .copying => true
  | .active => true
  | .restoring => true
  | .stranded => true
  | _ => false

/-- The working collections agree with the Slot Pool. -/
structure State.CollectionsAgree (s : State) : Prop where
  /-- The Free Queue holds every FREE slot exactly once and no other slot (R51, R54). -/
  free : s.freeQueue.Nodup ∧ (∀ i ∈ s.freeQueue, s.SlotIs i .free) ∧ ∀ i, i < s.pool.length → s.SlotIs i .free → i ∈ s.freeQueue
  /-- The Retire Queue holds every RETIRING slot exactly once and no other slot (R51, R56). -/
  retire : s.retireQueue.Nodup ∧ (∀ i ∈ s.retireQueue, s.SlotIs i .retiring)
    ∧ ∀ i, i < s.pool.length → s.SlotIs i .retiring → i ∈ s.retireQueue
  /-- A domain's backlog is the number of its RETIRING slots (R21). -/
  backlog : ∀ d, (s.dom d).backlog = (s.pool.filter fun e => decide (e.state = .retiring ∧ e.domain = d)).length
  /-- The Slot Index holds one entry for every slot in COPYING, ACTIVE, RESTORING or STRANDED, with its record, and no two entries
  name one record (R55). -/
  index : (s.slotIndex.map (·.slot)).Nodup ∧ (s.slotIndex.map fun e => (e.region, e.record)).Nodup
    ∧ (∀ e ∈ s.slotIndex, e.slot < s.pool.length ∧ (s.slot e.slot).state.holdsRecord = true
        ∧ (s.slot e.slot).region = e.region ∧ (s.slot e.slot).record = e.record)
    ∧ ∀ i, i < s.pool.length → (s.slot i).state.holdsRecord = true → i ∈ s.slotIndex.map (·.slot)
  /-- A member list has no duplicates and at most quota entries (R18, R23). -/
  members : ∀ d, (s.dom d).members.Nodup ∧ (s.dom d).members.length ≤ (s.cfg d).quota

/-- The items RESTORE has still to settle: the listed ones and the one in progress (R118, R124). -/
def Recovery.unsettled (r : Recovery) : List RecItem :=
  r.list ++ (match r.pos with | .restore it _ _ => [it] | _ => [])

/-- The items stranded so far (R125). -/
def Recovery.strandedItems (r : Recovery) : List RecItem :=
  r.outcomes.filterMap fun o => match o with | .stranded it => some it | _ => none

/-- A recovery item names a record of a region of its own enabled domain (R122). -/
def State.ItemFits (s : State) (it : RecItem) : Prop :=
  (s.cfg it.domain).enabled = true ∧ (s.layout.regions[it.region]).domain = it.domain

/-- The recovery record in STARTING (R118, R122 to R125): one item a record and a slot, each listed slot's outcome still open,
each stranded slot's domain failed; before SCAN nothing is judged, in SCAN as many slots as the scan position says. -/
structure State.RecoveryFits (s : State) : Prop where
  records : ((s.recovery.unsettled ++ s.recovery.strandedItems).map fun it => (it.region, it.record)).Nodup
  slots : (s.recovery.unsettled.map (·.slot)).Nodup
  listed : ∀ it ∈ s.recovery.unsettled, s.recovery.outcomes[it.slot]? = some .listed ∧ s.ItemFits it
  stranded : ∀ i, i < s.recovery.outcomes.length → ∀ it ∈ s.recovery.strandedItems,
    s.recovery.outcomes[i]? = some (.stranded it) → it.slot = i ∧ s.ItemFits it ∧ s.recovery.failedDomains[it.domain] = true
  phase : match s.recovery.pos with
    | .restore _ _ _ => True
    | .scan p _ => s.recovery.outcomes.length = s.recovery.scanPos ∧ s.recovery.strandedItems = [] ∧
      (match p with
      | .epoch d => (s.cfg d).enabled = true
      | .locator d _ => (s.cfg d).enabled = true
      | .check d _ loc => (s.cfg d).enabled = true ∧ (s.layout.regions[locatorRegion loc]).domain = d
      | .image d _ loc _ _ _ => (s.cfg d).enabled = true ∧ (s.layout.regions[locatorRegion loc]).domain = d
      | _ => True)
    | _ => s.recovery.list = [] ∧ s.recovery.outcomes = []

/-- Slots, domains, streams, the held write and the recovery record fit together: what a run keeps beside CollectionsAgree, and
what its proof needs. -/
structure State.WorkFits (s : State) : Prop where
  /-- An ACTIVE slot is a member of an OPEN or COMMITTING domain (R51). -/
  active : ∀ i, i < s.pool.length → (s.slot i).state = .active →
    ((s.dom (s.slot i).domain).state = .opened ∨ (s.dom (s.slot i).domain).state = .committing)
      ∧ i ∈ (s.dom (s.slot i).domain).members
  /-- A COPYING slot is the copy stream's, a member of an OPEN domain or on the restore list of a ROLLING one (R25, R34). -/
  copying : ∀ i, i < s.pool.length → (s.slot i).state = .copying → s.copy.map (·.slot) = some i
    ∧ (((s.dom (s.slot i).domain).state = .opened ∧ i ∈ (s.dom (s.slot i).domain).members)
      ∨ ((s.dom (s.slot i).domain).state = .rolling ∧ i ∈ (s.dom (s.slot i).domain).restoreList))
  /-- A RESTORING slot is on its ROLLING domain's restore list or in progress (R33, R86). -/
  restoring : ∀ i, i < s.pool.length → (s.slot i).state = .restoring → (s.dom (s.slot i).domain).state = .rolling
    ∧ (i ∈ (s.dom (s.slot i).domain).restoreList ∨ (s.dom (s.slot i).domain).stream.bind (·.slot) = some i)
  /-- A STRANDED slot's domain is FAILED (R42, R51). -/
  stranded : ∀ i, i < s.pool.length → (s.slot i).state = .stranded → (s.dom (s.slot i).domain).state = .failed
  /-- A slot that holds a record is of the record's domain (R52). -/
  owned : ∀ i, i < s.pool.length → (s.slot i).state.holdsRecord = true →
    (s.layout.regions[(s.slot i).region]).domain = (s.slot i).domain
  /-- A member's slot is the domain's own, ACTIVE or COPYING; only OPEN and COMMITTING domains have members (R18). -/
  members : ∀ d, (∀ i ∈ (s.dom d).members, (s.slot i).domain = d ∧ (s.SlotIs i .active ∨ s.SlotIs i .copying))
    ∧ ((s.dom d).state ≠ .opened → (s.dom d).state ≠ .committing → (s.dom d).members = [])
  /-- A restore list holds slots of the domain, RESTORING or COPYING, once each (R33, R34). -/
  lists : ∀ d, (s.dom d).restoreList.Nodup ∧ (∀ i ∈ (s.dom d).restoreList,
      (s.slot i).domain = d ∧ (s.SlotIs i .restoring ∨ s.SlotIs i .copying))
    ∧ ((s.dom d).state ≠ .rolling → (s.dom d).restoreList = [])
  /-- A domain has a restore stream exactly while it is ROLLING; its slot in progress is RESTORING, off the list, and begun when
  none of the list is COPYING (R85, R86). -/
  streams : ∀ d, ((s.dom d).stream.isSome = true ↔ (s.dom d).state = .rolling)
    ∧ ∀ st i, (s.dom d).stream = some st → st.slot = some i → (s.slot i).domain = d ∧ s.SlotIs i .restoring
      ∧ i ∉ (s.dom d).restoreList ∧ ∀ j ∈ (s.dom d).restoreList, s.SlotIs j .restoring
  /-- A COMMITTING domain has backlog 0 and only ACTIVE members (R21, R30). -/
  committing : ∀ d, (s.dom d).state = .committing → (s.dom d).backlog = 0 ∧ ∀ i ∈ (s.dom d).members, s.SlotIs i .active
  /-- The copy stream serves the held write (R25). -/
  copy : ∀ c, s.copy = some c → s.SlotIs c.slot .copying
    ∧ (s.mode ≠ .frozen → s.port.state = .deciding ∧ s.port.stage = .copy)
  /-- The commit stream's domain is COMMITTING; it serves the held write too, so no copy runs beside it (R30). -/
  commit : ∀ c, s.commit = some c → (s.dom c.domain).state = .committing ∧ s.copy = none
    ∧ (s.mode ≠ .frozen → s.port.state = .deciding ∧ s.port.stage = .epochWrite)
  /-- What the write in DECIDING waits for is there (R24, R25, R29, R30). -/
  held : ∀ h, s.journalHit = some h →
    (s.port.stage = .slot → (s.layout.regions[h.region]).domain = h.domain ∧ s.indexed h.region h.record = none
      ∧ s.slotComing = true ∧ ((s.dom h.domain).state = .idle
        ∨ ((s.dom h.domain).state = .opened ∧ (s.dom h.domain).members.length < (s.cfg h.domain).quota)))
    ∧ (s.port.stage = .copy → ∃ c, s.copy = some c ∧ (s.slot c.slot).domain = h.domain)
    ∧ (s.port.stage = .backlog → (s.dom h.domain).state = .opened)
    ∧ (s.port.stage = .commitStore → (s.dom h.domain).state = .committing)
  /-- FROZEN holds no write in decision (R70). -/
  frozen : s.mode = .frozen → s.journalHit = none
  /-- INSTALLING is quiet (R147, R154). -/
  quiet : s.mode = .installing → s.quiet = true
  /-- STARTING has no working state, no write in decision, and a recovery record that fits (R118, R70). -/
  starting : s.mode = .starting → s.pool = [] ∧ s.commit = none ∧ s.journalHit = none ∧ (∀ d, s.dom d = .discarded)
    ∧ s.RecoveryFits

/-! ### The checks on a layout (R156), the words of a region said one by one -/

/-- The address is a word of the region (R3). -/
def Layout.HasWord (l : Layout) (r : Fin 16) (a : Nat) : Prop :=
  l.regions[r].base.toNat ≤ a ∧ a < l.regions[r].base.toNat + l.regions[r].size * l.regions[r].count

/-- Check 1 of R156. -/
def Layout.LogFits (start : Nat) (l : Layout) : Prop :=
  264 ≤ l.logLength ∧ l.logLength ≤ 0x80000 ∧ start + l.logLength - 1 ≤ 0x7FFFF

/-- Check 2 of R156 for one entry; an entry of the model always names one of the three kinds. -/
def Layout.EntryFits (l : Layout) (r : Fin 16) : Prop :=
  1 ≤ l.regions[r].size ∧ l.regions[r].size ≤ 64 ∧ 1 ≤ l.regions[r].count ∧ l.regions[r].count ≤ 4096
    ∧ (l.regions[r].active = true → l.regions[r].base.toNat + l.regions[r].size * l.regions[r].count - 1 ≤ 0x7FFFF)

/-- Check 3 of R156 for one region. -/
def Layout.OffTheLog (start : Nat) (l : Layout) (r : Fin 16) : Prop :=
  l.regions[r].active = true → ∀ a, l.HasWord r a → ¬ (start ≤ a ∧ a < start + l.logLength)

/-- Check 4 of R156 for two regions. -/
def Layout.Apart (l : Layout) (r q : Fin 16) : Prop :=
  l.regions[r].active = true → l.regions[q].active = true → ∀ a, l.HasWord r a → ¬ l.HasWord q a

/-- Check 5 of R156 for one region. -/
def Layout.DomainOn (l : Layout) (r : Fin 16) : Prop :=
  l.regions[r].active = true → l.regions[r].kind ≠ .fixed → l.domains[l.regions[r].domain].enabled = true

/-- Check 6 of R156 for one domain. -/
def Layout.CommitInside (l : Layout) (d : Fin 4) : Prop :=
  l.domains[d].enabled = true → ∃ r : Fin 16, l.regions[r].active = true ∧ l.regions[r].kind = .journal
    ∧ l.regions[r].domain = d ∧ l.HasWord r l.domains[d].commitAddr.toNat

/-- Check 8 of R156 for one domain. -/
def Layout.QuotaFits (l : Layout) (d : Fin 4) : Prop :=
  l.domains[d].enabled = true → l.domains[d].quota ≤ l.geometry.slots

/-- The first four checks of R156. -/
def Layout.PassesFour (start : Nat) (l : Layout) : Prop :=
  l.LogFits start ∧ (∀ r, l.EntryFits r) ∧ (∀ r, l.OffTheLog start r) ∧ ∀ r q, r < q → l.Apart r q

/-! ### The management link -/

/-- The link takes frames: the supply is up, no RESET# is taken, and no ignored frame is in progress (R140). -/
def State.Listening (s : State) : Prop :=
  s.powered = true ∧ s.resetTaken = false ∧ s.link.ignoring = false

/-- The state in which a request is executed, its frame just ended: the output copy is the one latched at the frame's start
(R135), nothing else but the frame's own fields has changed. That the command is a whole frame is the model's choice, log 8; that
received bytes and output copy still show the ended frame is the model's choice, log 9. -/
def State.requested (bytes : List Byte) (s : State) : State :=
  { s with link := { s.link with
      receiving := false
      received := bytes
      overflow := false
      output := if s.link.receiving then s.link.output else some (s.statusByte :: s.link.result.bytes) } }

/-- The state after a request that only replaced the Result Buffer, under its own tag and code (R136). -/
def State.answered (bytes : List Byte) (result : ResultCode) (data : List Byte) (s : State) : State :=
  { s with link := { (s.requested bytes).link with
      result := { tag := bytes.getD 1 0, code := bytes.getD 0 0, result := result, data := data } } }

/-- The bytes of the frame that carries a request: code, tag, parameters most significant byte first (R137, R182). -/
def requestBytes : Instr → Option (List Byte)
  | .nop tag => some [0x00, tag]
  | .getStatus tag => some [0x01, tag]
  | .getDomain tag d p => some [0x02, tag, d, p]
  | .getSlot tag n => some [0x03, tag, n]
  | .getRegion tag r => some [0x04, tag, r]
  | .getStagedRegion tag i => some [0x05, tag, 0, i]
  | .getStagedDomain tag i => some [0x05, tag, 1, i]
  | .getStagedLog tag i => some [0x05, tag, 2, i]
  | .stageLoad tag => some [0x10, tag]
  | .stageRegion tag r base flags size count =>
    some [0x11, tag, r, base.extractLsb' 16 8, base.extractLsb' 8 8, base.extractLsb' 0 8, flags, size,
      count.extractLsb' 8 8, count.extractLsb' 0 8]
  | .stageDomain tag d flags quota deadline commit =>
    some [0x12, tag, d, flags, quota, deadline.extractLsb' 8 8, deadline.extractLsb' 0 8, commit.extractLsb' 16 8,
      commit.extractLsb' 8 8, commit.extractLsb' 0 8]
  | .stageLog tag len verify =>
    some [0x13, tag, len.extractLsb' 16 8, len.extractLsb' 8 8, len.extractLsb' 0 8, verify]
  | .install tag => some [0x14, tag]
  | .abort tag d => some [0x20, tag, d]
  | .resume tag d => some [0x21, tag, d]
  | .setModeGuarding tag => some [0x22, tag, 2]
  | .setModeBypass tag => some [0x22, tag, 3]
  | .takeEvent tag => some [0x30, tag]
  | .setEvents tag mask => some [0x31, tag, mask.extractLsb' 8 8, mask.extractLsb' 0 8]
  | .restart tag => some [0x3F, tag]
  | _ => none

/-- The requests that would change the part (R141, the rows with BUSY). -/
def changesThePart : Instr → Bool
  | .stageLoad _ => true
  | .stageRegion .. => true
  | .stageDomain .. => true
  | .stageLog .. => true
  | .install _ => true
  | .abort .. => true
  | .resume .. => true
  | .setModeBypass _ => true
  | .setModeGuarding _ => true
  | .setEvents .. => true
  | .restart _ => true
  | _ => false

/-- The requests refused WRONG_MODE in UNCONFIGURED (R141). -/
def steersADomain : Instr → Bool
  | .abort .. => true
  | .resume .. => true
  | .setModeBypass _ => true
  | .setModeGuarding _ => true
  | _ => false

end Sys2Proof.Machine
end

