-- ==== Sys2Proof/Certificates/Slice0/Obligations.lean ====
section
/-! DEFINITION. The statements for the provers, from the numbered rules of the manual. -/

open Sys2Proof Sys2Proof.Machine

/-! ### The queue -/

/-- The command at the front of the queue is executed with the queue's rest, and an empty queue idles (log 3). -/
def Obligations.StepRunsTheFrontCommand : Prop :=
  (∀ (s : State) (c : Instr) (rest : List Instr), s.pending = c :: rest → step s = exec c { s with pending := rest })
  ∧ ∀ s : State, s.pending = [] → step s = .next s

/-- Every command answers a next state, in every state, and leaves the queue as it was. The model's own choices in it: log 5. -/
def Obligations.EveryCommandAnswersAndKeepsTheQueue : Prop :=
  ∀ (c : Instr) (s : State), ∃ t, exec c s = .next t ∧ t.pending = s.pending

/-! ### Power-up values and invariants -/

/-- The power-up values that R105, R116, R118, R134, R168 and R177 give, with every collection and stream empty. -/
def Obligations.ResetIsThePowerUpState : Prop :=
  State.reset.mode = .starting ∧ State.reset.recovery.phase = .settle ∧ State.reset.recovery.startKind = .powerUp
  ∧ State.reset.recovery.settle = 0 ∧ State.reset.recovery.chosen = none ∧ State.reset.recovery.list = []
  ∧ State.reset.recovery.outcomes = []
  ∧ State.reset.recovery.counts = { restored := 0, discarded := 0, torn := 0, stale := 0, bad := 0, stranded := 0 }
  ∧ State.reset.memPort = { access := none, stopped := true, boost := false, pointer := 4 }
  ∧ (∀ d, (State.reset.dom d).state = .disabled ∧ (State.reset.dom d).committed = 0 ∧ (State.reset.dom d).members = []
      ∧ (State.reset.dom d).restoreList = [] ∧ (State.reset.dom d).backlog = 0 ∧ (State.reset.dom d).timer = 0
      ∧ (State.reset.dom d).stream = none)
  ∧ State.reset.pool = [] ∧ State.reset.freeQueue = [] ∧ State.reset.slotIndex = [] ∧ State.reset.retireQueue = []
  ∧ State.reset.copy = none ∧ State.reset.commit = none ∧ State.reset.install = none
  ∧ State.reset.port.state = .vacant ∧ State.reset.events = [] ∧ (∀ k : Fin 9, State.reset.mask[k] = true)
  ∧ State.reset.link.receiving = false ∧ State.reset.link.received = [] ∧ State.reset.link.output = none
  ∧ State.reset.link.result = { tag := 0, code := 0, result := .none, data := [] } ∧ State.reset.link.pendingOp = .none
  ∧ (∀ r : Fin 16, State.reset.staging.regions[r] =
      { active := false, base := 0, size := 1, count := 1, kind := .journal, domain := 0 })
  ∧ (∀ d : Fin 4, State.reset.staging.domains[d] =
      { enabled := false, commitAddr := 0, guardMode := .any, deadline := 0, quota := 1, fence := false, strict := false })
  ∧ State.reset.staging.logLength = 0 ∧ State.reset.staging.verify = false

/-- Every invariant stated below holds of the state after power-up. The model's own choices in it: log 1, 19. -/
def Obligations.InvariantsHoldAtReset : Prop :=
  Memory.wf State.reset.memory = true ∧ State.reset.Settled ∧ State.reset.ClaimantsFit ∧ State.reset.NoCycleWaits
  ∧ State.reset.LayoutsInRange ∧ State.reset.BuffersFit ∧ State.reset.CollectionsAgree ∧ State.reset.WorkFits

/-- Memory reads back what was written in the enabled lanes; a disabled lane and every other word keep their bytes (R76, R103).
The model's own choices in it: log 2. -/
def Obligations.MemoryReadsBackTheWrittenLanes : Prop :=
  ∀ (m : List Host.Cell) (a b : Addr) (lanes : Lanes) (w : Word), Memory.wf m = true →
    Memory.word (Memory.setWord m a lanes w) b =
      if b = a then
        (if lanes.high then w.extractLsb' 8 8 else (Memory.word m a).extractLsb' 8 8)
          ++ (if lanes.low then w.extractLsb' 0 8 else (Memory.word m a).extractLsb' 0 8)
      else Memory.word m b

/-- A command changes the memory only by completing the write access in progress, in the lanes it enables (R103, R104). With a
flaw the lanes hold the flaw's word instead of the driven one (log 7). -/
def Obligations.MemoryChangesOnlyByACompletedWrite : Prop :=
  ∀ (c : Instr) (s t : State), exec c s = .next t →
    t.memory = s.memory ∨
      ∃ f a, completionFlaw c = some f ∧ s.memPort.access = some a ∧ a.write = true
        ∧ t.memory = Memory.setWord s.memory a.addr a.lanes (f.getD a.data)

/-- Every step keeps the memory in canonical form. The model's own choices in it: log 1, 2. -/
def Obligations.MemoryStaysCanonical : Prop :=
  ∀ s t : State, Memory.wf s.memory = true → step s = .next t → Memory.wf t.memory = true

/-- A begun access is never cut (R104): only its completion, a loss of supply or a power-up ends it. At most its claimant has
gone. The model's own choices in it: log 10, 17. -/
def Obligations.BegunAccessIsNeverCut : Prop :=
  ∀ (c : Instr) (s t : State) (a : Access), s.memPort.access = some a → exec c s = .next t → completionFlaw c = none →
    c ≠ .supplyLoss → (∀ straps pfw reset, c ≠ .powerUp straps pfw reset) →
    ∃ orphan, t.memPort.access = some { a with orphan := orphan }

/-- A claim stands exactly while its claimant has a word access ready (R106, R112); and an access that a command begins is the one
its claimant's work has come to, with its address, its word and its lanes (R30, R44, R46, R57, R59, R71, R76, R87, R94, R103,
R120 to R124, R160 to R162, R178, R179), when no new cycle waits to arrive in the same step. An access is begun when none was
in progress, or when the command has completed one. -/
def Obligations.NewAccessesFollowTheState : Prop :=
  (∀ (s : State) (c : Claimant), c ∈ s.standing ↔ s.Ready c)
  ∧ ∀ (c : Instr) (s t : State) (a : Access), exec c s = .next t → s.port.waiting = none →
    s.memPort.access = none ∨ ((completionFlaw c).isSome = true ∧ t ≠ s) →
    t.memPort.access = some a → t.Needs a

/-- The step leaves nothing waiting that can go on: the arbiter leaves no claim standing at an idle port that is not stopped (R107),
and a cycle that waits for the Port is taken when the Port becomes VACANT (R65). The model's own choices in it: log 12, 23. -/
def Obligations.NothingReadyIsLeftWaiting : Prop :=
  ∀ s t : State, step s = .next t → (s.Settled → t.Settled) ∧ (s.NoCycleWaits → t.NoCycleWaits)

/-- Every step keeps the recovery's accesses in STARTING, the install's in INSTALLING, either also in the FROZEN that cut it, and a
FROZEN part's Memory Port stopped (R104, R112, R113, R159). The model's own choices in it: log 17. -/
def Obligations.ClaimantsKeepToTheirModes : Prop :=
  ∀ s t : State, s.ClaimantsFit → step s = .next t → t.ClaimantsFit

/-- Every step keeps the Event Queue at 16 records (R168, R176), a result's data at 24 bytes (R138) and the received bytes at 29
(R134); and the fields of the active, the staged and the chosen layout in range, their log lengths too (R2, R9, R43, R118,
R146). The model's own choices in it: log 20. -/
def Obligations.LayoutsAndBuffersStayInRange : Prop :=
  ∀ s t : State, step s = .next t → (s.BuffersFit → t.BuffersFit) ∧ (s.LayoutsInRange → t.LayoutsInRange)

/-- Every step keeps the working collections in agreement with the Slot Pool: the Free Queue and the Retire Queue hold each slot of
their state exactly once (R54, R56), a domain's backlog counts its RETIRING slots (R21), the Slot Index holds exactly the
COPYING, ACTIVE, RESTORING and STRANDED slots with no record twice (R55), and a member list has no duplicates and at most quota
entries (R18). The second invariant says how slots, domains and streams fit together; the proof of the first needs it. The
model's own choices in it: log 13, 14, 17. -/
def Obligations.CollectionsKeepAgreeingWithThePool : Prop :=
  ∀ s t : State, s.CollectionsAgree → s.WorkFits → s.LayoutsInRange → s.ClaimantsFit → step s = .next t →
    t.CollectionsAgree ∧ t.WorkFits

/-- Outside STARTING and INSTALLING a domain's committed epoch changes only when the commit stream's access for that domain
completes, and then by one (R20). The model's own choices in it: log 6. -/
def Obligations.CommittedEpochMovesOnlyAtTheCommit : Prop :=
  ∀ (c : Instr) (s t : State) (d : Fin 4), s.ClaimantsFit → s.mode ≠ .starting → s.mode ≠ .installing →
    exec c s = .next t → t.mode ≠ .starting →
    (t.dom d).committed = (s.dom d).committed ∨
      ((t.dom d).committed = (s.dom d).committed + 1 ∧ (completionFlaw c).isSome = true ∧
        ∃ a back, s.memPort.access = some a ∧ a.claimant = .commit ∧ a.orphan = false
          ∧ s.commit = some { domain := d, back := back })

/-! ### Tables, formats and the log -/

/-- The Match Unit's answer (R3, R15, R16): log area if the address lies in it; otherwise a hit on an active region whose span
contains it, with the index, the record and offset of R3, the kind and the domain; otherwise uncovered. Active regions that
share no word with each other or the log area, as in any valid layout, leave one answer: the hit of any region that contains
the address. The answer rests on the active tables and the log start alone. -/
def Obligations.ClassificationLocatesTheRecord : Prop :=
  (∀ (s : State) (a : Addr),
    let inLog : Prop :=
      s.activeCopy ≠ none ∧ logStartOf s.loc ≤ a.toNat ∧ a.toNat < logStartOf s.loc + s.layout.logLength
    let contains (r : Fin 16) : Prop := s.layout.regions[r].active = true ∧ s.layout.HasWord r a.toNat
    let hit (r : Fin 16) : Hit :=
      { region := r
        record := (a.toNat - s.layout.regions[r].base.toNat) / s.layout.regions[r].size
        offset := (a.toNat - s.layout.regions[r].base.toNat) % s.layout.regions[r].size
        kind := s.layout.regions[r].kind
        domain := s.layout.regions[r].domain }
    (inLog → classify s a = .logArea)
    ∧ (¬ inLog → (∃ r, contains r) → ∃ r, contains r ∧ classify s a = .hit (hit r))
    ∧ (¬ inLog → (∀ r, ¬ contains r) → classify s a = .uncovered)
    ∧ ((∀ r, s.layout.OffTheLog (logStartOf s.loc) r) → (∀ r q, r < q → s.layout.Apart r q) →
        ∀ r, contains r → classify s a = .hit (hit r))
    ∧ ∀ r, contains r →
        a.toNat = s.layout.regions[r].base.toNat + s.layout.regions[r].size * (hit r).record + (hit r).offset
          ∧ (hit r).offset < s.layout.regions[r].size ∧ (hit r).record < s.layout.regions[r].count)
  ∧ ∀ (s s' : State) (a : Addr), s'.layout = s.layout → s'.activeCopy = s.activeCopy → s'.loc = s.loc →
      classify s' a = classify s a

/-- Validation (R156): a layout is valid exactly when it passes each of the eight checks, sharing of words being said word by
word; otherwise the first check that fails, in the order of R156 and in ascending index within it, gives the detail and the
entries named, 0 standing for none. -/
def Obligations.ValidationIsTheEightChecks : Prop :=
  ∀ (start : Nat) (l : Layout),
    let fails (detail : ConfigDetail) (first second : Nat) : Prop :=
      validate start l = some { detail := detail, first := first, second := second }
    (validate start l = none ↔
      l.PassesFour start ∧ (∀ r, l.DomainOn r) ∧ (∀ d, l.CommitInside d) ∧ 1 ≤ l.geometry.slots ∧ ∀ d, l.QuotaFits d)
    ∧ (¬ l.LogFits start → fails .outOfRange 0 0)
    ∧ (∀ r, l.LogFits start → ¬ l.EntryFits r → (∀ q, q < r → l.EntryFits q) → fails .outOfRange r.val 0)
    ∧ (∀ r, l.LogFits start → (∀ q, l.EntryFits q) → ¬ l.OffTheLog start r → (∀ q, q < r → l.OffTheLog start q) →
        fails .logOverlap r.val 0)
    ∧ (∀ r q, l.LogFits start → (∀ p, l.EntryFits p) → (∀ p, l.OffTheLog start p) → r < q → ¬ l.Apart r q →
        (∀ r' q', r' < q' → r' < r ∨ (r' = r ∧ q' < q) → l.Apart r' q') → fails .overlap r.val q.val)
    ∧ (∀ r, l.PassesFour start → ¬ l.DomainOn r → (∀ q, q < r → l.DomainOn q) → fails .domainDisabled r.val 0)
    ∧ (∀ d, l.PassesFour start → (∀ r, l.DomainOn r) → ¬ l.CommitInside d → (∀ e, e < d → l.CommitInside e) →
        fails .commitWord d.val 0)
    ∧ (l.PassesFour start → (∀ r, l.DomainOn r) → (∀ d, l.CommitInside d) → ¬ 1 ≤ l.geometry.slots → fails .noSlots 0 0)
    ∧ ∀ d, l.PassesFour start → (∀ r, l.DomainOn r) → (∀ e, l.CommitInside e) → 1 ≤ l.geometry.slots →
        ¬ l.QuotaFits d → (∀ e, e < d → l.QuotaFits e) → fails .quota d.val 0

/-- The 128 words of a configuration copy, as INSTALL writes them (R161, R180, R181), are read by LOAD as the sequence and the
layout they were written from (R120), for every valid layout in range. -/
def Obligations.ConfigurationCopyReadsBack : Prop :=
  ∀ (start : Nat) (sequence : Word) (l : Layout), l.InRange → validate start l = none →
    (copyWords sequence l).length = 128 ∧ readCopy start (copyWords sequence l) = some (sequence, l)

/-- The grant decision at a completion (R107, R109, R110, R112, R113): a stopped port begins nothing; otherwise, of the claims that
stand once the completed access is settled, the one of the highest rank begins its access: the host first, the recovery in
STARTING, then copy, commit and the boosted retire, then the restore streams and the install from the position after the
pointer, the retire last. The pointer moves to a position granted at rank 3 and stays otherwise; an entry into STARTING has
set it to INSTALL. Every other completion command does nothing, or what MEMORY_ACCESS_COMPLETE does (log 6). -/
def Obligations.ArbiterGrantsTheHighestRank : Prop :=
  (∀ (f : Option Word) (s t : State) (a : Access), s.powered = true → s.memPort.access = some a → s.port.waiting = none →
    s.ClaimantsFit →
    exec (if a.claimant = .host then .hostAccessComplete f else .memoryAccessComplete f) s = .next t →
    let pointer : Fin 5 := if s.mode ≠ .starting ∧ t.mode = .starting then 4 else s.memPort.pointer
    (t.memPort.stopped = true → t.memPort.access = none ∧ t.memPort.pointer = pointer)
    ∧ (t.memPort.stopped = false → t.standing = [] → t.memPort.access = none ∧ t.memPort.pointer = pointer)
    ∧ ∀ c ∈ t.standing, t.memPort.stopped = false →
      (∀ c' ∈ t.standing, grantRank t.memPort.boost pointer c ≤ grantRank t.memPort.boost pointer c') →
      t.memPort.access = accessOf t c
      ∧ t.memPort.pointer = match c with
        | .restore d => d.castSucc
        | .install => 4
        | _ => pointer)
  ∧ ∀ (c : Instr) (f : Option Word) (s : State), completionFlaw c = some f → (∀ g, c ≠ .hostAccessComplete g) →
    exec c s = .next s ∨ exec c s = exec (.memoryAccessComplete f) s

/-- The three tests of a posting (R170, R171, R172): masked; folded into the newest record; appended; or discarded with the
newest record's lost flag set. -/
def Obligations.PostingIsSettledByThreeTests : Prop :=
  ∀ (s : State) (e : Event),
    record e s = { s with events := (record e s).events }
    ∧ (s.mask.getLsbD e.maskBit = false → (record e s).events = s.events)
    ∧ (s.mask.getLsbD e.maskBit = true →
      (∀ q reason addr region domain count addr' domain' count',
        s.events = q ++ [{ event := .writeBlocked reason addr region domain count, lost := false }] →
        e = .writeBlocked reason addr' region domain' count' →
        (record e s).events =
          q ++ [{ event := .writeBlocked reason addr region domain (min 255 (count + 1)), lost := false }])
      ∧ ((∀ q reason addr region domain count addr' domain' count',
            ¬ (s.events = q ++ [{ event := .writeBlocked reason addr region domain count, lost := false }]
              ∧ e = .writeBlocked reason addr' region domain' count')) →
        (s.events.length < 16 → (record e s).events = s.events ++ [{ event := e, lost := false }])
        ∧ (∀ q r, s.events = q ++ [r] → 16 ≤ s.events.length →
            (record e s).events = q ++ [{ event := r.event, lost := true }])))

/-! ### The management link -/

/-- The request of a frame is the one its bytes spell (R136, R137, R182): ending a frame with the bytes of a request does what the
request command does, and bytes clocked in beyond it, up to 29 in all, change nothing but the received bytes (R135, R137). Two
requests that only a frame can carry: GET_STAGED of a table kind above 2 is BAD_VALUE (R145); SET_MODE to another target is
BUSY or WRONG_MODE by the mode (R141) and BAD_VALUE otherwise (R150). The model's own choices in it: log 8, 9. -/
def Obligations.FrameBytesCarryEachRequest : Prop :=
  (∀ (c : Instr) (bytes : List Byte) (s : State), requestBytes c = some bytes → s.Listening → s.link.receiving = true →
    ∃ t, exec (.frameEnd bytes 0) s = .next t ∧ exec c s = .next t
      ∧ ∀ pad : List Byte, bytes.length + pad.length ≤ 29 →
        exec (.frameEnd (bytes ++ pad) 0) s = .next { t with link := { t.link with received := bytes ++ pad } })
  ∧ ∀ (s : State) (tag value i : Byte) (pad : List Byte), s.Listening → s.link.receiving = true →
    (2 < value.toNat → 4 + pad.length ≤ 29 →
      exec (.frameEnd ([0x05, tag, value, i] ++ pad) 0) s =
        .next (s.answered ([0x05, tag, value, i] ++ pad) .badValue []))
    ∧ (value ≠ 2 → value ≠ 3 → 3 + pad.length ≤ 29 →
      let refused (r : ResultCode) : Prop :=
        exec (.frameEnd ([0x22, tag, value] ++ pad) 0) s = .next (s.answered ([0x22, tag, value] ++ pad) r [])
      (s.mode = .starting ∨ s.mode = .frozen ∨ s.mode = .installing → refused .busy)
      ∧ (s.mode = .unconfigured → refused .wrongMode)
      ∧ (s.mode = .guarding ∨ s.mode = .bypass → refused .badValue))

/-- Steps 1 to 3 of R136: a frame with no whole byte, with an unknown code, or of a wrong length replaces the Result Buffer and
does nothing else. The model's own choices in it: log 9. -/
def Obligations.FaultyFramesAreAnswered : Prop :=
  ∀ (s : State) (bytes : List Byte) (extraBits : Nat), s.Listening → s.link.receiving = true →
    let answered (tag code : Byte) (result : ResultCode) : State :=
      { s with link := { s.link with
          receiving := false
          received := bytes.take 29
          overflow := decide (29 < bytes.length)
          result := { tag := tag, code := code, result := result, data := [] } } }
    let lengths : List (Byte × Nat) :=
      [(0x00, 2), (0x01, 2), (0x02, 4), (0x03, 3), (0x04, 3), (0x05, 4), (0x10, 2), (0x11, 10), (0x12, 10), (0x13, 6),
       (0x14, 2), (0x20, 3), (0x21, 3), (0x22, 3), (0x30, 2), (0x31, 4), (0x3F, 2)]
    (bytes = [] → exec (.frameEnd bytes extraBits) s = .next (answered 0 0 .badLength))
    ∧ (∀ code rest, bytes = code :: rest → (∀ p ∈ lengths, p.1 ≠ code) →
        exec (.frameEnd bytes extraBits) s = .next (answered (rest.headD 0) code .badRequest))
    ∧ (∀ code rest n, bytes = code :: rest → (code, n) ∈ lengths →
        bytes.length < n ∨ 29 < bytes.length ∨ extraBits ≠ 0 →
        exec (.frameEnd bytes extraBits) s = .next (answered (rest.headD 0) code .badLength))

/-- FRAME_BEGIN latches the output copy: the status byte of that moment and the 28 bytes of the Result Buffer, tag, code, result
code, data length, data and zero fill (R134, R135, R138, R182); no command changes it while the frame runs. SDO gives it byte
by byte, the most significant bit first, and zeros after byte 29; it is not driven outside a frame nor while RESET# is taken,
when a frame is ignored whole and any request in it does nothing (R135, R140, R182). The model's own choices in it: log 8, 9,
24. -/
def Obligations.FrameBeginLatchesTheOutput : Prop :=
  ∀ s : State,
    let number (r : ResultCode) : Byte := match r with
      | .none => 0x00
      | .ok => 0x01
      | .inProgress => 0x02
      | .busy => 0x03
      | .badRequest => 0x04
      | .badLength => 0x05
      | .badIndex => 0x06
      | .badValue => 0x07
      | .notQuiet => 0x08
      | .wrongMode => 0x09
      | .nothingOpen => 0x0A
      | .tooLate => 0x0B
      | .notFenced => 0x0C
      | .empty => 0x0D
      | .invalidConfig => 0x0E
      | .media => 0x0F
    let status : Byte :=
      BitVec.ofNat 8 (s.mode.code + (if s.events = [] then 0 else 8) + (if s.link.pendingOp = .none then 0 else 16))
    let r : ResultRec := s.link.result
    let copy : List Byte :=
      [status, r.tag, r.code, number r.result, BitVec.ofNat 8 r.data.length] ++ r.data ++ List.replicate (24 - r.data.length) 0
    (s.Listening → s.link.receiving = false →
      ∃ t, exec .frameBegin s = .next t
        ∧ t = { s with link := { s.link with receiving := true, received := [], overflow := false, output := some copy } }
        ∧ (∀ n, 1 ≤ n → t.shiftedOut n = some (if n ≤ 29 then copy.getD (n - 1) 0 else 0))
        ∧ ∀ n i, i < 8 → t.sdo (8 * n + i) = some ((if n < 29 then copy.getD n 0 else 0).getLsbD (7 - i)))
    ∧ (∀ c t, s.link.receiving = true → exec c s = .next t → t.link.receiving = true → t.link.output = s.link.output)
    ∧ (s.link.receiving = false ∨ s.resetTaken = true ∨ s.powered = false → ∀ k, s.sdo k = none)
    ∧ (∀ bytes extraBits t, s.Listening → s.link.receiving = true → exec (.frameEnd bytes extraBits) s = .next t →
        ∀ k, t.sdo k = none)
    ∧ (s.powered = true → s.resetTaken = true → s.link.receiving = false →
      ∀ c bytes, requestBytes c = some bytes →
        exec c s = .next { s with link := { s.link with ignoring := false } })

/-- NOP changes no state but the frame's own and leaves the Result Buffer as it is (R138). GET_STATUS reports the mode, the
start kind, the domain states, the counts of the pool and the queues, and the active copy with its sequence (R142, R182).
The model's own choices in it: log 8, 9. -/
def Obligations.NopAndStatusReadThePart : Prop :=
  ∀ (s : State) (tag : Byte), s.Listening →
    exec (.nop tag) s = .next (s.requested [0x00, tag])
    ∧ exec (.getStatus tag) s = .next (s.answered [0x01, tag] .ok
        ([BitVec.ofNat 8 s.mode.code, BitVec.ofNat 8 s.recovery.startKind.code,
          BitVec.ofNat 8 (s.dom 0).state.code, BitVec.ofNat 8 (s.dom 1).state.code,
          BitVec.ofNat 8 (s.dom 2).state.code, BitVec.ofNat 8 (s.dom 3).state.code,
          BitVec.ofNat 8 s.pool.length, BitVec.ofNat 8 s.freeQueue.length,
          BitVec.ofNat 8 (s.pool.filter fun e => e.state = .bad).length, BitVec.ofNat 8 s.retireQueue.length,
          BitVec.ofNat 8 s.events.length,
          match s.activeCopy with
          | none => 0
          | some .a => 1
          | some .b => 2,
          s.activeSequence.extractLsb' 8 8, s.activeSequence.extractLsb' 0 8]))

/-- GET_DOMAIN reports the configuration, the runtime record and a window of seven of the list in use (R143, R182): the
member list in OPEN and COMMITTING, the restore list in ROLLING; a domain above 3 is BAD_INDEX, a position above 127
BAD_VALUE. The model's own choices in it: log 8, 9, 14, 21. -/
def Obligations.GetDomainReportsTheRecord : Prop :=
  ∀ (s : State) (tag d p : Byte), s.Listening →
    (3 < d.toNat → exec (.getDomain tag d p) s = .next (s.answered [0x02, tag, d, p] .badIndex []))
    ∧ (d.toNat ≤ 3 → 127 < p.toNat → exec (.getDomain tag d p) s = .next (s.answered [0x02, tag, d, p] .badValue []))
    ∧ ∀ i : Fin 4, d.toNat = i.val → p.toNat ≤ 127 →
      let c := s.cfg i
      let r := s.dom i
      let epochs : List Byte :=
        [r.committed.extractLsb' 8 8, r.committed.extractLsb' 0 8]
          ++ (if r.state = .disabled then [0, 0] else [(r.committed + 1).extractLsb' 8 8, (r.committed + 1).extractLsb' 0 8])
      let list : List Nat :=
        if r.state = .opened ∨ r.state = .committing then r.members
        else if r.state = .rolling then r.restoreList else []
      exec (.getDomain tag d p) s = .next (s.answered [0x02, tag, d, p] .ok
        ([BitVec.ofNat 8 (c.guardMode.code + (if c.strict then 32 else 0) + (if c.fence then 64 else 0)
              + (if c.enabled then 128 else 0)),
          BitVec.ofNat 8 c.quota, c.deadline.extractLsb' 8 8, c.deadline.extractLsb' 0 8,
          BitVec.ofNat 8 (c.commitAddr.toNat / 65536), BitVec.ofNat 8 (c.commitAddr.toNat / 256),
          BitVec.ofNat 8 c.commitAddr.toNat, BitVec.ofNat 8 r.state.code]
          ++ epochs
          ++ [BitVec.ofNat 8 r.backlog, BitVec.ofNat 8 (r.timer / 256), BitVec.ofNat 8 r.timer,
              BitVec.ofNat 8 r.members.length, BitVec.ofNat 8 r.restoreList.length]
          ++ ((list.drop p.toNat).take 7).map (BitVec.ofNat 8)))

/-- GET_SLOT, GET_REGION and GET_STAGED return the entries as they stand (R144, R145, R182), with the stride and the pool
size that the staged layout would give (R47); an index outside its table is BAD_INDEX. The model's own choices in it: log 8,
9, 20. -/
def Obligations.TablesAreReadEntryByEntry : Prop :=
  ∀ (s : State) (tag n : Byte), s.Listening →
    let region (e : RegionEntry) : List Byte :=
      [BitVec.ofNat 8 (e.kind.code + e.domain.val * 16 + (if e.active then 128 else 0)),
       BitVec.ofNat 8 (e.base.toNat / 65536), BitVec.ofNat 8 (e.base.toNat / 256), BitVec.ofNat 8 e.base.toNat,
       BitVec.ofNat 8 e.size, BitVec.ofNat 8 (e.count / 256), BitVec.ofNat 8 e.count, if e.active then 1 else 0]
    (∀ e, s.pool[n.toNat]? = some e → exec (.getSlot tag n) s = .next (s.answered [0x03, tag, n] .ok
      (let a : Addr := BitVec.ofNat 19 (logStartOf s.loc + (260 + n.toNat * s.geometry.stride))
       [BitVec.ofNat 8 e.state.code, BitVec.ofNat 8 e.domain.val, e.epoch.extractLsb' 8 8, e.epoch.extractLsb' 0 8,
        BitVec.ofNat 8 e.region.val, BitVec.ofNat 8 (e.record / 256), BitVec.ofNat 8 e.record,
        BitVec.ofNat 8 (a.toNat / 65536), BitVec.ofNat 8 (a.toNat / 256), BitVec.ofNat 8 a.toNat])))
    ∧ (s.pool.length ≤ n.toNat → exec (.getSlot tag n) s = .next (s.answered [0x03, tag, n] .badIndex []))
    ∧ (∀ r : Fin 16, n.toNat = r.val →
        exec (.getRegion tag n) s = .next (s.answered [0x04, tag, n] .ok (region s.layout.regions[r]))
        ∧ exec (.getStagedRegion tag n) s = .next (s.answered [0x05, tag, 0, n] .ok (region s.staging.regions[r])))
    ∧ (15 < n.toNat → exec (.getRegion tag n) s = .next (s.answered [0x04, tag, n] .badIndex [])
        ∧ exec (.getStagedRegion tag n) s = .next (s.answered [0x05, tag, 0, n] .badIndex []))
    ∧ (∀ d : Fin 4, n.toNat = d.val →
        let c := s.staging.domains[d]
        exec (.getStagedDomain tag n) s = .next (s.answered [0x05, tag, 1, n] .ok
          [BitVec.ofNat 8 (c.guardMode.code + (if c.strict then 32 else 0) + (if c.fence then 64 else 0)
              + (if c.enabled then 128 else 0)),
           BitVec.ofNat 8 c.quota, c.deadline.extractLsb' 8 8, c.deadline.extractLsb' 0 8,
           BitVec.ofNat 8 (c.commitAddr.toNat / 65536), BitVec.ofNat 8 (c.commitAddr.toNat / 256),
           BitVec.ofNat 8 c.commitAddr.toNat]))
    ∧ (3 < n.toNat → exec (.getStagedDomain tag n) s = .next (s.answered [0x05, tag, 1, n] .badIndex []))
    ∧ (n = 0 → ∀ w : Nat,
        (∀ r : Fin 16, s.staging.regions[r].active = true → s.staging.regions[r].size ≤ w) →
        ((∃ r : Fin 16, s.staging.regions[r].active = true ∧ s.staging.regions[r].size = w) ∨ w = 0) →
        exec (.getStagedLog tag n) s = .next (s.answered [0x05, tag, 2, n] .ok
          [BitVec.ofNat 8 (s.staging.logLength / 65536), BitVec.ofNat 8 (s.staging.logLength / 256),
           BitVec.ofNat 8 s.staging.logLength, if s.staging.verify then 1 else 0, BitVec.ofNat 8 (4 + w),
           BitVec.ofNat 8 (min 128 ((s.staging.logLength - 260) / (4 + w)))]))
    ∧ (n ≠ 0 → exec (.getStagedLog tag n) s = .next (s.answered [0x05, tag, 2, n] .badIndex []))

/-- The STAGE requests write the whole staged entry, or nothing when an index or a value is out of range (R146, R182). An
index out of range is BAD_INDEX whatever the values are: R141 and R146 give no order between BAD_INDEX and BAD_VALUE, and
that clause is the model's choice, log 21. The model's other choices in it: log 8, 9. -/
def Obligations.StagingTakesCheckedEntries : Prop :=
  ∀ (s : State) (tag i flags small : Byte) (wide : Word) (long : BitVec 24), s.Listening →
    s.mode = .unconfigured ∨ s.mode = .guarding ∨ s.mode = .bypass →
    let regionBytes : List Byte :=
      [0x11, tag, i, long.extractLsb' 16 8, long.extractLsb' 8 8, long.extractLsb' 0 8, flags, small,
       wide.extractLsb' 8 8, wide.extractLsb' 0 8]
    let domainBytes : List Byte :=
      [0x12, tag, i, flags, small, wide.extractLsb' 8 8, wide.extractLsb' 0 8, long.extractLsb' 16 8,
       long.extractLsb' 8 8, long.extractLsb' 0 8]
    let logBytes : List Byte :=
      [0x13, tag, long.extractLsb' 16 8, long.extractLsb' 8 8, long.extractLsb' 0 8, flags]
    let regionOk : Prop :=
      long.toNat ≤ 0x7FFFF ∧ 1 ≤ small.toNat ∧ small.toNat ≤ 64 ∧ 1 ≤ wide.toNat ∧ wide.toNat ≤ 4096
        ∧ flags.toNat % 4 ≠ 3
    let domainOk : Prop := 1 ≤ small.toNat ∧ small.toNat ≤ 128 ∧ long.toNat ≤ 0x7FFFF
    let logOk : Prop := 264 ≤ long.toNat ∧ long.toNat ≤ 0x80000
    exec (.stageLoad tag) s = .next { s.answered [0x10, tag] .ok [] with staging := s.layout }
    ∧ (∀ (r : Fin 16) (kind : RegionKind) (d : Fin 4), i.toNat = r.val → regionOk → flags.toNat % 4 = kind.code →
        flags.toNat / 16 % 4 = d.val →
        let entry : RegionEntry :=
          { active := flags.getLsbD 7, base := long.extractLsb' 0 19, size := small.toNat, count := wide.toNat,
            kind := kind, domain := d }
        exec (.stageRegion tag i long flags small wide) s = .next { s.answered regionBytes .ok [] with
          staging := { s.staging with regions := s.staging.regions.set r entry } })
    ∧ (15 < i.toNat →
        exec (.stageRegion tag i long flags small wide) s = .next (s.answered regionBytes .badIndex []))
    ∧ (i.toNat ≤ 15 → ¬ regionOk →
        exec (.stageRegion tag i long flags small wide) s = .next (s.answered regionBytes .badValue []))
    ∧ (∀ (d : Fin 4) (g : GuardMode), i.toNat = d.val → domainOk → flags.toNat % 4 = g.code →
        let entry : DomainCfg :=
          { enabled := flags.getLsbD 7, commitAddr := long.extractLsb' 0 19, guardMode := g, deadline := wide,
            quota := small.toNat, fence := flags.getLsbD 6, strict := flags.getLsbD 5 }
        exec (.stageDomain tag i flags small wide long) s = .next { s.answered domainBytes .ok [] with
          staging := { s.staging with domains := s.staging.domains.set d entry } })
    ∧ (3 < i.toNat →
        exec (.stageDomain tag i flags small wide long) s = .next (s.answered domainBytes .badIndex []))
    ∧ (i.toNat ≤ 3 → ¬ domainOk →
        exec (.stageDomain tag i flags small wide long) s = .next (s.answered domainBytes .badValue []))
    ∧ (logOk → exec (.stageLog tag long flags) s = .next { s.answered logBytes .ok [] with
          staging := { s.staging with logLength := long.toNat, verify := flags.getLsbD 0 } })
    ∧ (¬ logOk → exec (.stageLog tag long flags) s = .next (s.answered logBytes .badValue []))

/-- The refusals by mode (R141): every request that would change the part is BUSY in STARTING, FROZEN and INSTALLING; ABORT,
RESUME and SET_MODE are WRONG_MODE in UNCONFIGURED. The request changes nothing else. The model's own choices in it: log 8,
9. -/
def Obligations.RequestsAreRefusedByMode : Prop :=
  ∀ (c : Instr) (bytes : List Byte) (s : State), requestBytes c = some bytes → s.Listening →
    (s.mode = .starting ∨ s.mode = .frozen ∨ s.mode = .installing → changesThePart c = true →
      exec c s = .next (s.answered bytes .busy []))
    ∧ (s.mode = .unconfigured → steersADomain c = true → exec c s = .next (s.answered bytes .wrongMode []))

/-- INSTALL (R147, R157, R159): NOT_QUIET first, then INVALID_CONFIG with its data; accepted, it posts IN_PROGRESS, becomes
pending, enters INSTALLING and creates the install stream. The model's own choices in it: log 8, 9. -/
def Obligations.InstallIsCheckedThenAccepted : Prop :=
  ∀ (s : State) (tag : Byte), s.Listening → s.mode = .unconfigured ∨ s.mode = .guarding ∨ s.mode = .bypass →
    let quiet : Prop :=
      (∀ d, (s.dom d).state = .disabled ∨ (s.dom d).state = .idle ∨ (s.dom d).state = .fenced)
        ∧ ∀ e ∈ s.pool, e.state = .free ∨ e.state = .bad
    (¬ quiet → exec (.install tag) s = .next (s.answered [0x14, tag] .notQuiet []))
    ∧ (quiet → ∀ f, validate (logStartOf s.loc) s.staging = some f →
        exec (.install tag) s = .next (s.answered [0x14, tag] .invalidConfig
          [BitVec.ofNat 8 f.detail.code, BitVec.ofNat 8 f.first, BitVec.ofNat 8 f.second,
           BitVec.ofNat 8 s.staging.geometry.slots]))
    ∧ (quiet → validate (logStartOf s.loc) s.staging = none → s.NoCycleWaits →
        ∃ t, exec (.install tag) s = .next t ∧
          Granted { s with
            mode := .installing
            link := { (s.answered [0x14, tag] .inProgress []).link with pendingOp := .install tag }
            install := some
              { returnMode := if s.mode = .bypass then .bypass else .guarding
                target := if s.activeCopy = some .a then .b else .a
                sequence := if s.activeCopy = none then 1 else s.activeSequence + 1
                step := .tags 0
                back := false
                epochs := Vector.replicate 4 0 } } t)

/-- ABORT is settled by the domain's state (R39, R148). Taken in OPEN, the start of rollback of R33 is made with cause
REQUESTED, and the stream begins with the newest member, when no member's copy is in flight and the Port decides no write;
OK carries the domain, the open epoch and the member count. Every other state refuses and changes nothing. The model's own
choices in it: log 8, 9, 14. -/
def Obligations.AbortIsSettledByTheDomainState : Prop :=
  ∀ (s : State) (tag b : Byte) (d : Fin 4), s.Listening → s.mode = .guarding ∨ s.mode = .bypass → b.toNat = d.val →
    let refused (r : ResultCode) : Prop := exec (.abort tag b) s = .next (s.answered [0x20, tag, b] r [])
    ((s.dom d).state = .idle ∨ (s.dom d).state = .fenced ∨ (s.dom d).state = .rolling → refused .nothingOpen)
    ∧ ((s.dom d).state = .committing → refused .tooLate)
    ∧ ((s.dom d).state = .failed → refused .wrongMode)
    ∧ ((s.dom d).state = .disabled → refused .badIndex)
    ∧ (∀ b' : Byte, 3 < b'.toNat → exec (.abort tag b') s = .next (s.answered [0x20, tag, b'] .badIndex []))
    ∧ ((s.dom d).state = .opened → (s.dom d).members ≠ [] →
        (∀ i ∈ (s.dom d).members, (s.slot i).state ≠ .copying) → s.port.state ≠ .deciding → s.NoCycleWaits →
        ∃ t, exec (.abort tag b) s = .next t ∧
          Granted { s with
            link := (s.answered [0x20, tag, b] .ok
              [BitVec.ofNat 8 d.val, ((s.dom d).committed + 1).extractLsb' 8 8,
               ((s.dom d).committed + 1).extractLsb' 0 8, BitVec.ofNat 8 (s.dom d).members.length]).link
            domains := s.domains.set d ((s.dom d).rolledBack .requested)
            pool := movedPool .active .restoring (s.dom d).members s.pool } t)

/-- RESUME (R149): after the mode check of R141, a FENCED domain becomes IDLE with OK; IDLE, OPEN, COMMITTING, ROLLING and
FAILED are NOT_FENCED; DISABLED or a domain above 3 is BAD_INDEX; nothing else changes, in the domain or elsewhere. The
command carries a whole frame, so with none in progress it latches the output copy too, and the link keeps the frame's bytes
after it: the model's choices, log 8, 9. -/
def Obligations.ResumeReleasesAFencedDomain : Prop :=
  ∀ (s : State) (tag b : Byte), s.Listening →
    (s.mode = .starting ∨ s.mode = .frozen ∨ s.mode = .installing →
      exec (.resume tag b) s = .next (s.answered [0x21, tag, b] .busy []))
    ∧ (s.mode = .unconfigured → exec (.resume tag b) s = .next (s.answered [0x21, tag, b] .wrongMode []))
    ∧ (s.mode = .guarding ∨ s.mode = .bypass → 3 < b.toNat →
      exec (.resume tag b) s = .next (s.answered [0x21, tag, b] .badIndex []))
    ∧ ∀ d : Fin 4, s.mode = .guarding ∨ s.mode = .bypass → b.toNat = d.val →
      ((s.dom d).state = .fenced → exec (.resume tag b) s = .next { s.answered [0x21, tag, b] .ok [] with
          domains := s.domains.set d { s.dom d with state := .idle } })
      ∧ ((s.dom d).state = .disabled → exec (.resume tag b) s = .next (s.answered [0x21, tag, b] .badIndex []))
      ∧ ((s.dom d).state = .idle ∨ (s.dom d).state = .opened ∨ (s.dom d).state = .committing
            ∨ (s.dom d).state = .rolling ∨ (s.dom d).state = .failed →
          exec (.resume tag b) s = .next (s.answered [0x21, tag, b] .notFenced []))

/-- SET_MODE (R150): to the mode in force nothing changes; to the other mode the device must be quiet, and for BYPASS no
slot may be BAD; then the mode alone changes. The model's own choices in it: log 8, 9. -/
def Obligations.SetModeNeedsAQuietPart : Prop :=
  ∀ (s : State) (tag : Byte), s.Listening → s.mode = .guarding ∨ s.mode = .bypass →
    let quiet : Prop :=
      (∀ d, (s.dom d).state = .disabled ∨ (s.dom d).state = .idle ∨ (s.dom d).state = .fenced)
        ∧ ∀ e ∈ s.pool, e.state = .free ∨ e.state = .bad
    let noneBad : Prop := ∀ e ∈ s.pool, e.state ≠ .bad
    (s.mode = .guarding ∨ quiet → exec (.setModeGuarding tag) s =
        .next { s.answered [0x22, tag, 2] .ok [] with mode := .guarding })
    ∧ (s.mode = .bypass → ¬ quiet → exec (.setModeGuarding tag) s = .next (s.answered [0x22, tag, 2] .notQuiet []))
    ∧ (s.mode = .bypass ∨ (quiet ∧ noneBad) → exec (.setModeBypass tag) s =
        .next { s.answered [0x22, tag, 3] .ok [] with mode := .bypass })
    ∧ (s.mode = .guarding → ¬ (quiet ∧ noneBad) →
        exec (.setModeBypass tag) s = .next (s.answered [0x22, tag, 3] .notQuiet []))

/-- TAKE_EVENT removes the oldest record and returns it (R151, R174, R183), EMPTY with nothing changed when there is none.
Its first bytes are the kind and the flags, shown for a WRITE_BLOCKED record. The model's own choices in it: log 8, 9. -/
def Obligations.TakeEventRemovesTheOldest : Prop :=
  ∀ (s : State) (tag : Byte), s.Listening →
    (s.events = [] → exec (.takeEvent tag) s = .next (s.answered [0x30, tag] .empty []))
    ∧ (∀ r rest, s.events = r :: rest →
        exec (.takeEvent tag) s = .next { s.answered [0x30, tag] .ok r.bytes with events := rest })
    ∧ ∀ reason addr region domain count lost rest,
        s.events = { event := .writeBlocked reason addr region domain count, lost := lost } :: rest →
        exec (.takeEvent tag) s = .next { s.answered [0x30, tag] .ok
          [3, BitVec.ofNat 8 ((if lost then 128 else 0) + (if region.isSome then 1 else 0) + (if domain.isSome then 2 else 0)),
           BitVec.ofNat 8 reason.code, BitVec.ofNat 8 (addr.toNat / 65536), BitVec.ofNat 8 (addr.toNat / 256),
           BitVec.ofNat 8 addr.toNat, BitVec.ofNat 8 ((region.map (·.val)).getD 0),
           BitVec.ofNat 8 ((domain.map (·.val)).getD 0), BitVec.ofNat 8 count] with events := rest }

/-- SET_EVENTS (R152): a mask with a bit above the nine kinds is BAD_VALUE and leaves the old mask; otherwise the new mask
replaces the old, OK carries it, and the records in the queue stay; an event posted after it is recorded only if the new
mask enables its kind; BUSY in STARTING, FROZEN and INSTALLING (R141); every kind is enabled after power-up and after RESET#
(R132). The model's own choices in it: log 8, 9 (the command as a whole frame, whose bytes the link keeps), log 11 (the
straps of RESET_ASSERT), log 32 (what RESET# clears in SETTLE). -/
def Obligations.SetEventsReplacesTheMask : Prop :=
  (∀ (s : State) (tag : Byte) (mask : Word), s.Listening →
    (s.mode = .unconfigured ∨ s.mode = .guarding ∨ s.mode = .bypass →
      (mask.extractLsb' 9 7 ≠ 0 → exec (.setEvents tag mask) s =
        .next (s.answered [0x31, tag, mask.extractLsb' 8 8, mask.extractLsb' 0 8] .badValue []))
      ∧ (mask.extractLsb' 9 7 = 0 →
        ∃ t, exec (.setEvents tag mask) s = .next t
          ∧ t = { s.answered [0x31, tag, mask.extractLsb' 8 8, mask.extractLsb' 0 8] .ok
                    [mask.extractLsb' 8 8, mask.extractLsb' 0 8] with mask := mask.extractLsb' 0 9 }
          ∧ ∀ e : Event, mask.getLsbD e.maskBit = false → (record e t).events = s.events))
    ∧ (s.mode = .starting ∨ s.mode = .frozen ∨ s.mode = .installing → exec (.setEvents tag mask) s =
        .next (s.answered [0x31, tag, mask.extractLsb' 8 8, mask.extractLsb' 0 8] .busy [])))
  ∧ (∀ e : Event, State.reset.mask.getLsbD e.maskBit = true)
  ∧ ∀ (s t : State) (straps : Straps), s.powered = true → s.resetAsserted = false → s.mode ≠ .frozen →
      exec (.resetAssert straps) s = .next t → ∀ e : Event, t.mask.getLsbD e.maskBit = true

/-- RESTART (R70, R129, R132, R153): pending with its tag, nothing posted, the working state discarded and STARTING entered
at LOAD with start kind RESTART; LOAD begins at once when no access is in progress and RESET# is released, and waits for the
access otherwise (R105). The Host Port is settled by the table of R70. The Staging Tables, the events, the mask, the Result
Buffer, the restored domains set and the memory stay. The RESTART itself leaves the received bytes and the output copy
unchanged (R134); that they still show its own frame, which has ended, is the model's choice, log 9. The model's other
choices in it: log 8, 17, 18, 20. -/
def Obligations.RestartKeepsTheManagementState : Prop :=
  ∀ (s : State) (tag : Byte), s.Listening → s.mode = .unconfigured ∨ s.mode = .guarding ∨ s.mode = .bypass →
    s.NoCycleWaits →
    ∃ t, exec (.restart tag) s = .next t
      ∧ t.mode = .starting ∧ t.recovery.startKind = .restart ∧ t.recovery.phase = .load
      ∧ t.recovery.restoredDomains = s.recovery.restoredDomains
      ∧ t.link = { (s.requested [0x3F, tag]).link with pendingOp := .restart tag }
      ∧ t.staging = s.staging ∧ t.events = s.events ∧ t.mask = s.mask ∧ t.memory = s.memory
      ∧ s.port.Settled s.memPort.access t.port
      ∧ (∀ d, t.dom d = .discarded) ∧ t.pool = [] ∧ t.freeQueue = [] ∧ t.slotIndex = [] ∧ t.retireQueue = []
      ∧ t.copy = none ∧ t.commit = none ∧ t.install = none ∧ t.activeCopy = none
      ∧ t.memPort.boost = false ∧ t.memPort.pointer = 4
      ∧ (∀ a, s.memPort.access = some a →
          (∃ orphan, t.memPort.access = some { a with orphan := orphan }) ∧ t.memPort.stopped = true)
      ∧ (s.memPort.access = none → s.resetAsserted = false →
          t.loc = s.straps.loc ∧ t.memPort.stopped = false ∧ t.memPort.access =
            some { claimant := .recovery, write := false, addr := BitVec.ofNat 19 (logStartOf s.straps.loc),
                   lanes := { low := true, high := true }, data := 0, orphan := false })

/-! ### Supply, time base and supervision pins -/

/-- POWER_UP puts every block at its power-up value (R105, R116, R118, R134, R177), and SUPPLY_LOSS loses everything inside the
part; the memory, the pins and the queue stay (R113, R132; log 10). The model's own choices in it: log 10, 11, 19, 24. -/
def Obligations.SupplyLeavesOnlyTheMemory : Prop :=
  ∀ (s : State) (straps : Straps) (pfw reset : Bool),
    exec (.powerUp straps pfw reset) s = .next { State.reset with
      pfwAsserted := pfw, resetAsserted := reset, resetTaken := reset, straps := straps, mt := straps.mt,
      memory := s.memory, arrivals := s.arrivals, pending := s.pending }
    ∧ (s.powered = true → exec .supplyLoss s = .next { State.reset with
      powered := false, pfwAsserted := s.pfwAsserted, resetAsserted := s.resetAsserted, straps := s.straps,
      memory := s.memory, arrivals := s.arrivals, pending := s.pending })

/-- A tick (R37): in GUARDING every running timer falls by one and a stopped one stays, when none expires; in the other modes but
STARTING nothing changes. In SETTLE (R119) a tick counts while PFW# is released, the second ends SETTLE, and LOAD begins at
once with its first read when RESET# is released and the Memory Port is still; SETTLE_END is that second tick. The model's own
choices in it: log 4, 18, 31. -/
def Obligations.TicksRunTheTimersAndSettle : Prop :=
  ∀ s : State, s.powered = true → s.NoCycleWaits →
    (s.mode = .guarding → (∀ d, (s.dom d).state = .opened → (s.dom d).timer ≠ 1) →
      ∃ t, exec .tick s = .next t ∧
        Granted { s with domains := s.domains.map fun r => { r with timer := r.timer - 1 } } t)
    ∧ (s.mode = .unconfigured ∨ s.mode = .bypass ∨ s.mode = .installing ∨ s.mode = .frozen →
      ∃ t, exec .tick s = .next t ∧ Granted s t)
    ∧ (s.mode = .starting → s.recovery.phase = .settle →
      (s.pfwAsserted = true → ∃ t, exec .tick s = .next t ∧ Granted s t)
      ∧ (s.pfwAsserted = false → s.recovery.settle = 0 →
        ∃ t, exec .tick s = .next t ∧ Granted { s with recovery := { s.recovery with settle := 1 } } t)
      ∧ (s.pfwAsserted = false → s.recovery.settle = 1 →
        (s.resetAsserted = true →
          ∃ t, exec .settleEnd s = .next t ∧ exec .tick s = .next t
            ∧ Granted { s with recovery := { s.recovery with settle := 2, phase := .load } } t)
        ∧ (s.resetAsserted = false → s.recovery.pos = .idle → s.memPort.access = none →
          s.standing = [] →
          exec .tick s = exec .settleEnd s ∧ exec .settleEnd s = .next { s with
            loc := s.straps.loc
            mt := s.straps.mt
            recovery := { s.recovery with settle := 2, phase := .load, pos := .copies [] }
            memPort := { s.memPort with
              stopped := false
              access := some { claimant := .recovery, write := false, addr := BitVec.ofNat 19 (logStartOf s.straps.loc),
                               lanes := { low := true, high := true }, data := 0, orphan := false } } })))

/-- DEADLINE_EXPIRY (R33, R38): the tick that brings the timer of an OPEN domain to zero starts its rollback with cause DEADLINE,
the other timers falling by one, when no copy of the domain is in flight and no write of it is held. A write of the domain
that waits for a slot or for backlog is dropped with reason DROPPED first (R34). The model's own choices in it: log 4, 14. -/
def Obligations.DeadlineExpiryAborts : Prop :=
  ∀ (s : State) (d : Fin 4), s.powered = true → s.mode = .guarding → s.NoCycleWaits →
    (s.dom d).timer = 1 → (s.dom d).state = .opened → (s.dom d).members ≠ [] →
    (∀ i ∈ (s.dom d).members, (s.slot i).state ≠ .copying) →
    (∀ e, e ≠ d → (s.dom e).state = .opened → (s.dom e).timer ≠ 1) →
    let ticked (r : Runtime) : Runtime := { r with timer := r.timer - 1 }
    let expired : State := { s with
      domains := (s.domains.map ticked).set d ((s.dom d).rolledBack .deadline)
      pool := movedPool .active .restoring (s.dom d).members s.pool }
    (s.port.state ≠ .deciding → ∃ t, exec (.deadlineExpiry d) s = .next t ∧ exec .tick s = .next t ∧ Granted expired t)
    ∧ ∀ h, s.port.state = .deciding → s.port.disp = some .journal → s.port.cls = some (.hit h) → h.domain = d →
        h.kind ≠ .fixed → s.port.stage = .slot ∨ s.port.stage = .backlog → s.port.NoneFollows →
        ∃ t, exec (.deadlineExpiry d) s = .next t ∧ exec .tick s = .next t ∧
          Granted { expired with
            port := s.port.ended (.drop .dropped)
            memPort := { s.memPort with boost := false }
            events := (record (.writeBlocked .dropped s.port.cycle.addr (some h.region) (some d) 1) s).events } t

/-- RESET# (R70, R104, R119, R128, R130, R132): taken, it enters STARTING at LOAD with start kind RESET, stops the Memory Port,
discards the working state and clears what the link holds; in SETTLE only the link's states are cleared; in FROZEN it only
stands on the pin. A begun access is not cut: the host's keeps its claimant, every other one's is discarded; the Host Port is
settled by the table of R70. The model's own choices in it: log 11, 17, 20, 24, 32. -/
def Obligations.ResetIsTaken : Prop :=
  ∀ (s : State) (straps : Straps), s.powered = true → s.resetAsserted = false →
    (s.mode = .frozen →
      exec (.resetAssert straps) s = .next { s with straps := straps, resetAsserted := true })
    ∧ (s.mode = .starting → s.recovery.phase = .settle →
      exec (.resetAssert straps) s = .next { s with
        straps := straps, resetAsserted := true, resetTaken := true
        staging := .cleared, events := [], mask := BitVec.allOnes 9
        link := { receiving := false, ignoring := s.link.receiving || s.link.ignoring, received := [], overflow := false,
                  output := none, result := { tag := 0, code := 0, result := .none, data := [] }, pendingOp := .none } })
    ∧ (s.mode ≠ .frozen → ¬ (s.mode = .starting ∧ s.recovery.phase = .settle) →
      ∃ access port, exec (.resetAssert straps) s = .next { s with
          straps := straps, resetAsserted := true, resetTaken := true
          staging := .cleared, events := [], mask := BitVec.allOnes 9
          link := { receiving := false, ignoring := s.link.receiving || s.link.ignoring, received := [], overflow := false,
                    output := none, result := { tag := 0, code := 0, result := .none, data := [] }, pendingOp := .none }
          mode := .starting
          recovery := { startKind := .reset, phase := .load, settle := 0, chosen := none, epochs := Vector.replicate 4 0,
                        scanPos := 0, list := [], outcomes := [],
                        counts := { restored := 0, discarded := 0, torn := 0, stale := 0, bad := 0, stranded := 0 },
                        restoredDomains := s.recovery.restoredDomains, failedDomains := Vector.replicate 4 false,
                        pos := .idle }
          layout := .cleared, activeCopy := none, activeSequence := 0, geometry := { wmax := 0, stride := 0, slots := 0 }
          domains := Vector.replicate 4 .discarded, pool := [], freeQueue := [], slotIndex := [], retireQueue := []
          copy := none, commit := none, retireBack := false, install := none
          port := port
          memPort := { access := access, stopped := true, boost := false, pointer := 4 } }
        ∧ s.port.Settled s.memPort.access port
        ∧ (s.memPort.access = none → access = none)
        ∧ (∀ a, s.memPort.access = some a → ∃ orphan, access = some { a with orphan := orphan }
            ∧ (a.claimant = .host → s.port.state = .atMemory → orphan = a.orphan)
            ∧ (¬ (a.claimant = .host ∧ s.port.state = .atMemory) → orphan = true)))

/-- LOAD begins (R105, R119, R120, R128, R131): at the release of RESET# in LOAD, at the release of PFW# that ends FROZEN in a
warm restart, and when the last access before a RESTART has finished: the straps are sampled, the port no longer stopped, and
the first word of copy A is read. A release of PFW# with RESET# asserted is a RESET start that waits for RESET#. The model's
own choices in it: log 7, 11, 17, 18. -/
def Obligations.LoadBeginsWhenNothingHoldsIt : Prop :=
  ∀ (s : State) (straps : Straps), s.powered = true → s.NoCycleWaits →
    let firstRead (l : Straps) : Access :=
      { claimant := .recovery, write := false, addr := BitVec.ofNat 19 (logStartOf l.loc),
        lanes := { low := true, high := true }, data := 0, orphan := false }
    let loading (l : Straps) (t : State) : Prop :=
      t.mode = .starting ∧ t.recovery.phase = .load ∧ t.recovery.pos = .copies [] ∧ t.loc = l.loc ∧ t.mt = l.mt
        ∧ t.memPort.stopped = false ∧ t.memPort.access = some (firstRead l)
    (s.resetAsserted = true → s.mode = .starting → s.recovery.phase = .load → s.recovery.pos = .idle →
      s.memPort.access = none → s.standing = [] →
      ∃ t, exec (.resetRelease straps) s = .next t ∧ loading straps t ∧ t = { s with
        straps := straps, loc := straps.loc, mt := straps.mt, resetAsserted := false, resetTaken := false
        recovery := { s.recovery with pos := .copies [] }
        memPort := { s.memPort with stopped := false, access := some (firstRead straps) } })
    ∧ (s.pfwAsserted = true → s.mode = .frozen → s.resetAsserted = false → s.memPort.access = none →
      s.port.state = .vacant ∨ s.port.state = .held ∨ s.port.state = .closing →
      ∃ t, exec (.pfwRelease straps) s = .next t ∧ loading straps t ∧ t.pfwAsserted = false
        ∧ t.recovery.startKind = .warm ∧ t.recovery.restoredDomains = s.recovery.restoredDomains
        ∧ t.port = s.port ∧ t.memory = s.memory ∧ t.staging = s.staging ∧ t.events = s.events ∧ t.mask = s.mask
        ∧ t.link = s.link ∧ (∀ d, t.dom d = .discarded) ∧ t.pool = [] ∧ t.copy = none ∧ t.commit = none
        ∧ t.install = none ∧ t.retireQueue = [] ∧ t.freeQueue = [] ∧ t.slotIndex = [] ∧ t.activeCopy = none)
    ∧ (s.pfwAsserted = true → s.mode = .frozen → s.resetAsserted = true →
      ∃ t, exec (.pfwRelease straps) s = .next t ∧ t.mode = .starting ∧ t.recovery.phase = .load
        ∧ t.recovery.startKind = .reset ∧ t.recovery.pos = .idle ∧ t.memPort.stopped = true ∧ t.staging = .cleared
        ∧ t.events = [] ∧ (∀ e : Event, t.mask.getLsbD e.maskBit = true) ∧ t.memory = s.memory
        ∧ (∀ d, t.dom d = .discarded) ∧ t.pool = [])
    ∧ (∀ f a, s.memPort.access = some a → a.claimant ≠ .host → a.orphan = true → s.mode = .starting →
      s.recovery.phase = .load → s.recovery.pos = .idle → s.resetAsserted = false →
      s.standing = [] →
      ∃ t, exec (.memoryAccessComplete f) s = .next t ∧ loading s.straps t
        ∧ t.memory = (if a.write then Memory.setWord s.memory a.addr a.lanes (f.getD a.data) else s.memory))

/-- PFW# (R37, R70, R104, R113, R130, R133): in every mode and phase but SETTLE it enters FROZEN: the Memory Port stops, the access
in progress stays with its claimant, the timers stop, the Host Port is settled by the table of R70, and the rest stays as it
stood. In SETTLE only the count goes back to zero (R119). In FROZEN the access finishes and its word goes to its claimant's own
record and no further: no event, no slot, queue or domain state moves, and a restore of the recovery whose tag clear finishes
there has its domain in the restored domains set. The model's own choices in it: log 7, 11, 17, 29. -/
def Obligations.PowerFailFreezes : Prop :=
  (∀ (s : State) (straps : Straps), s.powered = true → s.pfwAsserted = false →
    (s.mode = .starting → s.recovery.phase = .settle →
      exec (.pfwAssert straps) s = .next { s with
        straps := straps, pfwAsserted := true, recovery := { s.recovery with settle := 0 } })
    ∧ (¬ (s.mode = .starting ∧ s.recovery.phase = .settle) →
      ∃ port, exec (.pfwAssert straps) s = .next { s with
          straps := straps, pfwAsserted := true, mode := .frozen
          domains := s.domains.map fun r => { r with timer := 0 }
          port := port
          memPort := { s.memPort with stopped := true } }
        ∧ s.port.Settled s.memPort.access port))
  ∧ ∀ (s : State) (f : Option Word) (a : Access), s.powered = true → s.mode = .frozen → s.memPort.stopped = true →
    s.NoCycleWaits → s.memPort.access = some a → a.claimant ≠ .host →
    ∃ t, exec (.memoryAccessComplete f) s = .next t
      ∧ t = { s.completed f a with
          copy := t.copy, commit := t.commit, retireBack := t.retireBack, install := t.install, recovery := t.recovery
          domains := t.domains }
      ∧ (∀ d, t.dom d = { s.dom d with stream := (t.dom d).stream })
      ∧ (a.orphan = true → t = s.completed f a)
      ∧ ∀ it back, a.claimant = .recovery → a.orphan = false → s.recovery.pos = .restore it .tag back →
        s.WordDone s.layout.verify back f a 0 ∨ s.WordFails s.layout.verify back f a 0 →
        t.recovery.restoredDomains = s.recovery.restoredDomains.set it.domain true

/-! ### The host bus -/

/-- A read passes to its own address, or in GUARDING is redirected to a slot image (R68, R71 to R73): the alternate master's
to an ACTIVE slot's, either master's to a RESTORING or STRANDED slot's. With the Memory Port idle its access begins at once. -/
def Obligations.ReadsPassOrAreRedirected : Prop :=
  ∀ (s : State) (addr : Addr) (lanes : Lanes) (alt : Bool), s.PortOpen → s.mode ≠ .starting → s.mode ≠ .frozen →
    let atMemory (d : Disposition) (a : Addr) : Prop :=
      ∃ t, exec (.hostRead addr lanes alt) s = .next t ∧ t.waitAsserted = true
        ∧ Granted { s with
            port := .latched .atMemory (readCycle addr lanes alt) (some (classify s addr)) (some d) .none } t
        ∧ (s.Settled → s.memPort.access = none → s.memPort.stopped = false → t.memPort.access = some (hostReadAt a))
    let passes : Prop := atMemory .pass addr
    (s.mode ≠ .guarding → passes)
    ∧ (s.mode = .guarding → classify s addr = .uncovered ∨ classify s addr = .logArea → passes)
    ∧ ∀ h, s.mode = .guarding → classify s addr = .hit h →
      (h.kind = .fixed ∨ s.indexed h.region h.record = none → passes)
      ∧ ∀ i, h.kind ≠ .fixed → s.indexed h.region h.record = some i →
        let redirected : Prop := atMemory (.redirect i (s.slotAddr i (4 + h.offset))) (s.slotAddr i (4 + h.offset))
        ((s.slot i).state = .restoring ∨ (s.slot i).state = .stranded → redirected)
        ∧ ((s.slot i).state = .active → if alt then redirected else passes)
        ∧ ((s.slot i).state = .copying ∨ (s.slot i).state = .retiring ∨ (s.slot i).state = .free
            ∨ (s.slot i).state = .bad → passes)

/-- Writes that pass (R68, R76, R77, R81, R84): in UNCONFIGURED every write, in BYPASS every write outside the log area, in GUARDING
a write to an uncovered address; the store enables the host's lanes. A write with no lane enabled has no effect. -/
def Obligations.WritesPassWithoutJournalWork : Prop :=
  ∀ (s : State) (addr : Addr) (lanes : Lanes) (alt : Bool) (data : Word), s.PortOpen →
    (s.mode = .unconfigured ∨ s.mode = .guarding ∨ s.mode = .bypass → lanes.low = false → lanes.high = false →
      ∃ t, exec (.hostWrite addr lanes alt data) s = .next t ∧ t.waitAsserted = false
        ∧ Granted { s with
            port := .latched .closing (writeCycle addr lanes alt data) (some (classify s addr)) (some .noEffect) .none } t)
    ∧ (lanes.low = true ∨ lanes.high = true →
      s.mode = .unconfigured ∨ (s.mode = .bypass ∧ classify s addr ≠ .logArea)
        ∨ (s.mode = .guarding ∧ classify s addr = .uncovered) →
      ∃ t, exec (.hostWrite addr lanes alt data) s = .next t ∧ t.waitAsserted = true
        ∧ Granted { s with
            port := .latched .atMemory (writeCycle addr lanes alt data) (some (classify s addr)) (some .pass) .none } t
        ∧ (s.Settled → s.memPort.access = none → s.memPort.stopped = false →
            t.memPort.access = some (hostStoreOf (writeCycle addr lanes alt data))))

/-- Writes that end at once with nothing stored: blocked LOG_AREA, FIXED and ALT_WRITE (R77, R78, R81), or dropped for the state
of their domain (R22, R80). The write is reported, the cycle ends, no domain changes: here no strict domain is OPEN where a
block raises STRAY. -/
def Obligations.RefusedWritesAreReported : Prop :=
  ∀ (s : State) (addr : Addr) (lanes : Lanes) (alt : Bool) (data : Word), s.PortOpen →
    lanes.low = true ∨ lanes.high = true →
    let refused (d : Disposition) (boost : Bool) (e : Event) : Prop :=
      ∃ t, exec (.hostWrite addr lanes alt data) s = .next t ∧ t.waitAsserted = false
        ∧ Granted { s with
            port := .latched .closing (writeCycle addr lanes alt data) (some (classify s addr)) (some d) .none
            memPort := { s.memPort with boost := boost }
            events := (record e s).events } t
    let noStray : Prop := ∀ d, ¬ ((s.cfg d).strict = true ∧ (s.dom d).state = .opened)
    (classify s addr = .logArea → (s.mode = .guarding ∧ (alt = true ∨ noStray)) ∨ s.mode = .bypass →
      refused (.block .logArea) s.memPort.boost (.writeBlocked .logArea addr none none 1))
    ∧ ∀ h, classify s addr = .hit h → s.mode = .guarding →
      (alt = true → refused (.block .altWrite) s.memPort.boost
        (.writeBlocked .altWrite addr (some h.region) (if h.kind = .fixed then none else some h.domain) 1))
      ∧ (alt = false → h.kind = .fixed → noStray → refused (.block .fixed) s.memPort.boost
        (.writeBlocked .fixed addr (some h.region) none 1))
      ∧ (alt = false → h.kind ≠ .fixed →
        ((s.dom h.domain).state = .rolling → refused (.drop .rolling) false
          (.writeBlocked .rolling addr (some h.region) (some h.domain) 1))
        ∧ ((s.dom h.domain).state = .fenced → refused (.drop .fenced) false
          (.writeBlocked .fenced addr (some h.region) (some h.domain) 1))
        ∧ ((s.dom h.domain).state = .failed → refused (.drop .failed) false
          (.writeBlocked .failed addr (some h.region) (some h.domain) 1)))

/-- STRAY (R33, R36, R82): a primary write to a FIXED record or to the log area in GUARDING is reported, then every strict OPEN
domain aborts with cause STRAY, none with a copy of its own in flight; then the cycle ends. The model's own choices in it: log
14. -/
def Obligations.StrayWritesAbortStrictDomains : Prop :=
  ∀ (s : State) (addr : Addr) (lanes : Lanes) (data : Word), s.PortOpen → s.mode = .guarding →
    lanes.low = true ∨ lanes.high = true →
    let struck (d : Fin 4) : Bool := (s.cfg d).strict && decide ((s.dom d).state = .opened)
    (∀ d, struck d = true → (s.dom d).members ≠ [] ∧ ∀ i ∈ (s.dom d).members, (s.slot i).state ≠ .copying) →
    let aborts (reason : Reason) (e : Event) : Prop :=
      ∃ t, exec (.hostWrite addr lanes false data) s = .next t ∧ t.waitAsserted = false
        ∧ Granted { s with
            port := .latched .closing (writeCycle addr lanes false data) (some (classify s addr)) (some (.block reason)) .none
            events := (record e s).events
            domains := Vector.ofFn fun d : Fin 4 => if struck d then (s.dom d).rolledBack .stray else s.dom d
            pool := movedPool .active .restoring
              (([0, 1, 2, 3] : List (Fin 4)).flatMap fun d => if struck d then (s.dom d).members else []) s.pool } t
    (classify s addr = .logArea → aborts .logArea (.writeBlocked .logArea addr none none 1))
    ∧ ∀ h, classify s addr = .hit h → h.kind = .fixed → aborts .fixed (.writeBlocked .fixed addr (some h.region) none 1)

/-- A record joins (R22, R23, R37, R79): the slot at the head of the Free Queue becomes COPYING for the record at the open epoch,
the tail member of its domain, which is OPEN with its timer loaded if it was IDLE; the write is held, and with the Memory
Port idle the copy's first read begins. -/
def Obligations.JoiningRecordTakesTheNextSlot : Prop :=
  ∀ (s : State) (addr : Addr) (lanes : Lanes) (data : Word) (h : Hit) (i : Nat) (rest : List Nat), s.PortOpen →
    s.mode = .guarding → lanes.low = true ∨ lanes.high = true → classify s addr = .hit h → h.kind ≠ .fixed →
    (s.dom h.domain).state = .idle ∨ ((s.dom h.domain).state = .opened
      ∧ (s.dom h.domain).members.length < (s.cfg h.domain).quota
      ∧ ∀ j, s.indexed h.region h.record = some j → (s.slot j).state ≠ .active) →
    s.freeQueue = i :: rest →
    ∃ t, exec (.hostWrite addr lanes false data) s = .next t ∧ t.waitAsserted = true
      ∧ Granted { s with
          port := .latched .deciding (writeCycle addr lanes false data) (some (.hit h)) (some .journal) .copy
          memPort := { s.memPort with boost := false }
          freeQueue := rest
          slotIndex := s.slotIndex ++ [{ region := h.region, record := h.record, slot := i }]
          copy := some { slot := i, pos := .read 0, back := false, sum := 0 }
          domains := s.domains.set h.domain { s.dom h.domain with
            state := .opened
            timer := if (s.dom h.domain).state = .idle then (s.cfg h.domain).deadline.toNat else (s.dom h.domain).timer
            members := (s.dom h.domain).members ++ [i] }
          pool := s.pool.set i { state := .copying, domain := h.domain, epoch := (s.dom h.domain).committed + 1,
                                 region := h.region, record := h.record } } t
      ∧ (s.Settled → s.memPort.access = none → s.memPort.stopped = false → i < s.pool.length →
          t.memPort.access = some
            { claimant := .copy, write := false, orphan := false, lanes := { low := true, high := true }, data := 0
              addr := BitVec.ofNat 19
                (s.layout.regions[h.region].base.toNat + s.layout.regions[h.region].size * h.record) })

/-- A write to a member record is stored at once (R22, R27); one to the commit word is a commit attempt (R11, R12, R28 to R30):
held with boost while backlog is above zero; on a guard pass COMMITTING with the timer stopped and the store asked for; on a
guard failure an abort with cause GUARD, the write dropped with reason DROPPED. The model's own choices in it: log 14, 16. -/
def Obligations.MemberWritesAndCommitAttempts : Prop :=
  ∀ (s : State) (addr : Addr) (lanes : Lanes) (data : Word) (h : Hit) (i : Nat), s.PortOpen → s.mode = .guarding →
    lanes.low = true ∨ lanes.high = true → classify s addr = .hit h → h.kind ≠ .fixed →
    (s.dom h.domain).state = .opened → s.indexed h.region h.record = some i → (s.slot i).state = .active →
    let commit : Prop := (s.cfg h.domain).enabled = true ∧ (s.cfg h.domain).commitAddr = addr
    let held (g : WriteStage) : HostPort :=
      .latched .deciding (writeCycle addr lanes false data) (some (.hit h)) (some .journal) g
    let old : Word := Memory.word s.memory (s.slotAddr i (4 + h.offset))
    let new : Word := (if lanes.high then data.extractLsb' 8 8 else old.extractLsb' 8 8)
      ++ (if lanes.low then data.extractLsb' 0 8 else old.extractLsb' 0 8)
    let passes : Prop := match (s.cfg h.domain).guardMode with
      | .any => True
      | .advance => new = old + 1
      | .increase => old.toNat < new.toNat
      | .change => new ≠ old
    (¬ commit → ∃ t, exec (.hostWrite addr lanes false data) s = .next t ∧ Granted { s with port := held .store } t
      ∧ (s.Settled → s.memPort.access = none → s.memPort.stopped = false →
          t.memPort.access = some (hostStoreOf (writeCycle addr lanes false data))))
    ∧ (commit → (s.dom h.domain).backlog ≠ 0 → ∃ t, exec (.hostWrite addr lanes false data) s = .next t
      ∧ Granted { s with port := held .backlog, memPort := { s.memPort with boost := true } } t)
    ∧ (commit → (s.dom h.domain).backlog = 0 → passes → ∃ t, exec (.hostWrite addr lanes false data) s = .next t
      ∧ Granted { s with
          port := held .commitStore
          memPort := { s.memPort with boost := false }
          domains := s.domains.set h.domain { s.dom h.domain with state := .committing, timer := 0 } } t
      ∧ (s.Settled → s.memPort.access = none → s.memPort.stopped = false →
          t.memPort.access = some (hostStoreOf (writeCycle addr lanes false data))))
    ∧ (commit → (s.dom h.domain).backlog = 0 → ¬ passes → (s.dom h.domain).members ≠ [] →
      (∀ j ∈ (s.dom h.domain).members, (s.slot j).state ≠ .copying) →
      ∃ t, exec (.hostWrite addr lanes false data) s = .next t ∧ t.waitAsserted = false
        ∧ Granted { s with
            port := .latched .closing (writeCycle addr lanes false data) (some (.hit h)) (some (.drop .dropped)) .none
            memPort := { s.memPort with boost := false }
            events := (record (.writeBlocked .dropped addr (some h.region) (some h.domain) 1) s).events
            domains := s.domains.set h.domain ((s.dom h.domain).rolledBack .guard)
            pool := movedPool .active .restoring (s.dom h.domain).members s.pool } t)

/-- A join that finds no slot waits with boost while a slot is RETIRING or RESTORING, and the domain stays as it is (R24). With
none coming the update aborts LOG_FULL: an OPEN one with members rolls back (R33), an IDLE domain's empty one ends at once,
WRITE_BLOCKED recorded before ABORTED (R24, R35; the order is log 15); a join beyond the quota aborts the update QUOTA (R23).
The write is dropped with reason DROPPED. The model's own choices in it: log 14, 15. -/
def Obligations.JoinWithoutASlotWaitsOrAborts : Prop :=
  ∀ (s : State) (addr : Addr) (lanes : Lanes) (data : Word) (h : Hit), s.PortOpen → s.mode = .guarding →
    lanes.low = true ∨ lanes.high = true → classify s addr = .hit h → h.kind ≠ .fixed →
    let dropped : Event := .writeBlocked .dropped addr (some h.region) (some h.domain) 1
    let coming : Prop := ∃ e ∈ s.pool, e.state = .retiring ∨ e.state = .restoring
    let ended : HostPort :=
      .latched .closing (writeCycle addr lanes false data) (some (.hit h)) (some (.drop .dropped)) .none
    let outsider : Prop := (s.dom h.domain).state = .opened
      ∧ ∀ j, s.indexed h.region h.record = some j → (s.slot j).state ≠ .active
    let rollsBack (cause : Cause) : Prop :=
      ∃ t, exec (.hostWrite addr lanes false data) s = .next t ∧ t.waitAsserted = false
        ∧ Granted { s with
            port := ended
            memPort := { s.memPort with boost := false }
            events := (record dropped s).events
            domains := s.domains.set h.domain ((s.dom h.domain).rolledBack cause)
            pool := movedPool .active .restoring (s.dom h.domain).members s.pool } t
    ((s.dom h.domain).state = .idle ∨ (outsider ∧ (s.dom h.domain).members.length < (s.cfg h.domain).quota) →
      s.freeQueue = [] → coming →
      ∃ t, exec (.hostWrite addr lanes false data) s = .next t ∧ t.waitAsserted = true
        ∧ Granted { s with
            port := .latched .deciding (writeCycle addr lanes false data) (some (.hit h)) (some .journal) .slot
            memPort := { s.memPort with boost := true } } t)
    ∧ ((s.dom h.domain).state = .idle → (s.dom h.domain).members = [] → s.freeQueue = [] → ¬ coming →
      ∃ t, exec (.hostWrite addr lanes false data) s = .next t ∧ t.waitAsserted = false
        ∧ Granted { s with
            port := ended
            memPort := { s.memPort with boost := false }
            events := (record (.aborted h.domain ((s.dom h.domain).committed + 1) .logFull 0) (record dropped s)).events
            domains := s.domains.set h.domain { s.dom h.domain with
              state := if (s.cfg h.domain).fence then .fenced else .idle
              timer := 0, restoreList := [], stream := none } } t)
    ∧ (outsider → (s.dom h.domain).members ≠ [] → (∀ j ∈ (s.dom h.domain).members, (s.slot j).state ≠ .copying) →
      ((s.cfg h.domain).quota ≤ (s.dom h.domain).members.length → rollsBack .quota)
      ∧ ((s.dom h.domain).members.length < (s.cfg h.domain).quota → s.freeQueue = [] → ¬ coming → rollsBack .logFull))

/-- The mode decides whether an arriving cycle is held (R68, R69): in STARTING and FROZEN every one, in INSTALLING the writes; a
held cycle is latched and nothing else happens. A cycle that comes before the Port is VACANT waits (R65). The model's own
choices in it: log 23. -/
def Obligations.ModesHoldArrivingCycles : Prop :=
  ∀ (s : State) (addr : Addr) (lanes : Lanes) (alt : Bool) (data : Word), s.powered = true →
    (s.port.state = .vacant → s.loadReady = false →
      (s.mode = .starting ∨ s.mode = .frozen →
        ∃ t, exec (.hostRead addr lanes alt) s = .next t ∧ t.waitAsserted = true
          ∧ Granted { s with port := .latched .held (readCycle addr lanes alt) none none .none } t)
      ∧ (s.mode = .starting ∨ s.mode = .frozen ∨ s.mode = .installing →
        ∃ t, exec (.hostWrite addr lanes alt data) s = .next t ∧ t.waitAsserted = true
          ∧ Granted { s with port := .latched .held (writeCycle addr lanes alt data) none none .none } t))
    ∧ (s.port.state ≠ .vacant →
      exec (.hostRead addr lanes alt) s = .next { s with port := { s.port with waiting := some (readCycle addr lanes alt) } }
      ∧ exec (.hostWrite addr lanes alt data) s =
        .next { s with port := { s.port with waiting := some (writeCycle addr lanes alt data) } })

/-- The end of the host's cycle (R64, R65): CLOSING becomes VACANT; a HELD access is discarded; one in DECIDING or AT_MEMORY is
carried through as an early end; a cycle that waited is taken at the vacancy, held or passed by the mode. The model's own
choices in it: log 5, 23, 29. -/
def Obligations.CycleEndFreesThePort : Prop :=
  ∀ s : State, s.powered = true →
    let vacant : HostPort := { s.port with state := .vacant, stage := .none, early := false }
    (s.port.state = .closing ∨ (s.port.state = .held ∧ s.port.early = false) → s.loadReady = false →
      (s.port.waiting = none →
        ∃ t, exec .hostCycleEnd s = .next t ∧ t.waitAsserted = false ∧ Granted { s with port := vacant } t)
      ∧ (s.Settled → ∀ c, s.port.waiting = some c →
        (s.mode.holds c.write = true →
          ∃ t, exec .hostCycleEnd s = .next t ∧ Granted { s with port := .latched .held c none none .none } t)
        ∧ (s.mode ≠ .starting → s.mode ≠ .frozen → c.write = false → classify s c.addr = .uncovered →
          ∃ t, exec .hostCycleEnd s = .next t ∧
            Granted { s with port := .latched .atMemory c (some .uncovered) (some .pass) .none } t)))
    ∧ (s.port.state = .deciding ∨ s.port.state = .atMemory → s.port.early = false →
      exec .hostCycleEnd s = .next { s with port := { s.port with early := true } })
    ∧ (s.port.state = .deciding ∨ s.port.state = .atMemory ∨ s.port.state = .held → s.port.early = true →
      exec .hostCycleEnd s = .next { s with port := { s.port with waiting := none } })
    ∧ (s.port.state = .vacant → exec .hostCycleEnd s = .next s)

/-- HOST_ACCESS_COMPLETE (R30, R64, R66, R103): a read's word is latched and driven in CLOSING; a passed write is stored and the
cycle ends; so is the store of a member write; after a commit's store the epoch write of the commit stream is next. The
model's own choices in it: log 7, 26. -/
def Obligations.HostAccessCompletes : Prop :=
  ∀ (s : State) (f : Option Word) (a : Access), s.InProgress .host a → s.mode ≠ .starting → s.port.NoneFollows →
    (s.port.state = .atMemory → s.port.cycle.write = false → a.write = false →
      ∃ t, exec (.hostAccessComplete f) s = .next t
        ∧ Granted { s.completed f a with port := { s.port with
            state := if s.port.early then .vacant else .closing
            cycle := { s.port.cycle with data := s.wordRead f a }
            stage := .none, early := false } } t
        ∧ (s.port.early = false → t.dataDriven = some (s.wordRead f a)))
    ∧ (s.port.state = .atMemory → s.port.cycle.write = true → a.write = true →
      ∃ t, exec (.hostAccessComplete f) s = .next t
        ∧ Granted { s.completed f a with port := { s.port with
            state := if s.port.early then .vacant else .closing, stage := .none, early := false } } t)
    ∧ (s.port.state = .deciding → s.port.stage = .store → a.write = true →
      ∃ t, exec (.hostAccessComplete f) s = .next t
        ∧ Granted { s.completed f a with port := s.port.ended .pass } t)
    ∧ ∀ h, s.port.state = .deciding → s.port.stage = .commitStore → s.port.disp = some .journal →
      s.port.cls = some (.hit h) → a.write = true →
      ∃ t, exec (.hostAccessComplete f) s = .next t
        ∧ Granted { s.completed f a with
            port := { s.port with stage := .epochWrite }
            commit := some { domain := h.domain, back := false } } t
        ∧ (s.memPort.stopped = false → s.copy = none → t.memPort.access = some
            { claimant := .commit, write := true, orphan := false, lanes := { low := true, high := true }
              addr := BitVec.ofNat 19 (logStartOf s.loc + (256 + h.domain.val)), data := (s.dom h.domain).committed + 1 })

/-! ### Streams of the update cycle -/

/-- MEMORY_ACCESS_COMPLETE for the copy stream (R57, R58, R94): each record word read is written to its image word next, then the
epoch, the locator, the check and the tag, each read back first with verify on; a ONCE record goes on past blank words only.
While its write is held, each access follows at once, at the address and with the word shown (R48, R103, R178, R179). An access
whose claimant was discarded only finishes (R104). The model's own choices in it: log 6, 7, 17. -/
def Obligations.CopyStreamWorksWordByWord : Prop :=
  ∀ (s : State) (f : Option Word) (a : Access), s.mode ≠ .starting → s.NoCycleWaits →
    (∀ c, s.InProgress .copy a → s.copy = some c →
      let e : PoolEntry := s.slot c.slot
      let region : RegionEntry := s.layout.regions[e.region]
      let locator : Word := BitVec.ofNat 16 (e.region.val * 4096 + e.record % 4096)
      let word (k : Nat) : Nat := s.slotOffset c.slot k
      let goesTo (c' : CopyStream) (next : Access) : Prop :=
        ∃ t, exec (.memoryAccessComplete f) s = .next t ∧ Granted { s.completed f a with copy := some c' } t
          ∧ (s.port.state = .deciding → s.port.stage = .copy → s.memPort.stopped = false → t.memPort.access = some next)
      let done (w : Word) : Prop := s.WordDone s.layout.verify c.back f a w
      (∀ k, c.pos = .read k → a.write = false → region.kind ≠ .once ∨ s.wordRead f a = 0xFFFF →
        goesTo { c with pos := .image k (s.wordRead f a), back := false } (writeOf .copy (word (4 + k)) (s.wordRead f a)))
      ∧ (s.layout.verify = true → c.back = false → a.write = true →
        (∀ k w, c.pos = .image k w → goesTo { c with back := true } (readOf .copy (word (4 + k))))
        ∧ (c.pos = .epoch → goesTo { c with back := true } (readOf .copy (word 1)))
        ∧ (c.pos = .locator → goesTo { c with back := true } (readOf .copy (word 2)))
        ∧ (c.pos = .check → goesTo { c with back := true } (readOf .copy (word 3)))
        ∧ (c.pos = .tag → goesTo { c with back := true } (readOf .copy (word 0))))
      ∧ (∀ k w, c.pos = .image k w → done w →
        (k + 1 < region.size →
          goesTo { c with pos := .read (k + 1), back := false, sum := c.sum + w }
            (readOf .copy (region.wordAt e.record (k + 1))))
        ∧ (region.size ≤ k + 1 →
          goesTo { c with pos := .epoch, back := false, sum := c.sum + w } (writeOf .copy (word 1) e.epoch)))
      ∧ (c.pos = .epoch → done e.epoch → goesTo { c with pos := .locator, back := false } (writeOf .copy (word 2) locator))
      ∧ (c.pos = .locator → done locator →
        goesTo { c with pos := .check, back := false } (writeOf .copy (word 3) (~~~ (e.epoch + locator + c.sum))))
      ∧ (c.pos = .check → done (~~~ (e.epoch + locator + c.sum)) →
        goesTo { c with pos := .tag, back := false } (writeOf .copy (word 0) (0xA600 + BitVec.ofNat 16 e.domain.val))))
    ∧ (s.powered = true → s.memPort.access = some a → a.orphan = true → a.claimant ≠ .host →
      ∃ t, exec (.memoryAccessComplete f) s = .next t ∧ Granted (s.completed f a) t)

/-- COPY_COMPLETE (R25, R26, R28, R30, R34, R35, R90, R96). In an OPEN domain the slot becomes ACTIVE and the held write goes on: a
member write to its store, a commit attempt to its wait for backlog, to its store or, on a guard failure, to the abort GUARD.
After an abort the slot becomes RESTORING, the write is dropped and the restore begins. A ONCE record not blank gives its slot
back to the head of the Free Queue; in an OPEN domain the write is blocked ONCE_USED, a domain without members is IDLE, and
STRAY then strikes every strict domain still OPEN (R36, R82). A media fault at any word written makes the slot BAD and aborts
an OPEN update with cause MEDIA. In ROLLING a slot not blank or faulted leaves the restore list, and the rollback goes on or
ends. The model's own choices in it: log 6, 7, 14, 15, 16. -/
def Obligations.CopyEndsSettleTheHeldWrite : Prop :=
  ∀ (s : State) (f : Option Word) (a : Access) (c : CopyStream) (h : Hit), s.InProgress .copy a → s.mode ≠ .starting →
    s.mode ≠ .frozen → s.copy = some c → s.port.state = .deciding → s.port.disp = some .journal → s.port.cls = some (.hit h) →
    h.kind ≠ .fixed → (s.slot c.slot).domain = h.domain → s.port.NoneFollows →
    let e : PoolEntry := s.slot c.slot
    let r : Runtime := s.dom h.domain
    let locator : Word := BitVec.ofNat 16 (e.region.val * 4096 + e.record % 4096)
    let entry (state : SlotState) : PoolEntry := { state := state, domain := 0, epoch := 0, region := 0, record := 0 }
    let unindexed : List IndexEntry := s.slotIndex.filter fun x => decide (x.slot ≠ c.slot)
    let reported (reason : Reason) : Event := .writeBlocked reason s.port.cycle.addr (some h.region) (some h.domain) 1
    let settles (u : State) : Prop :=
      ∃ t, exec (.copyComplete f) s = .next t ∧ Granted { u with copy := none, memPort := { u.memPort with access := none } } t
    let active : State := { s.completed f a with pool := s.pool.set c.slot { e with state := .active } }
    let dropped (u : State) : State := { s.completed f a with
      port := s.port.ended (.drop .dropped)
      memPort := { s.memPort with boost := false }
      events := (record (reported .dropped) u).events }
    let tagged : Prop := c.pos = .tag ∧ s.WordDone s.layout.verify c.back f a (0xA600 + BitVec.ofNat 16 h.domain.val)
    let notBlank : Prop := a.write = false ∧ (s.layout.regions[e.region]).kind = .once ∧ s.wordRead f a ≠ 0xFFFF
      ∧ ∃ k, c.pos = .read k
    let faultAt (k : Nat) : Prop :=
      let fails (w : Word) : Prop := s.WordFails s.layout.verify c.back f a w
      (∃ i w, c.pos = .image i w ∧ fails w ∧ k = 4 + i)
        ∨ (c.pos = .epoch ∧ fails e.epoch ∧ k = 1) ∨ (c.pos = .locator ∧ fails locator ∧ k = 2)
        ∨ (c.pos = .check ∧ fails (~~~ (e.epoch + locator + c.sum)) ∧ k = 3)
        ∨ (c.pos = .tag ∧ fails (0xA600 + BitVec.ofNat 16 e.domain.val) ∧ k = 0)
    let faulted (k : Nat) : State :=
      record (.mediaFault .copy (some c.slot) (BitVec.ofNat 19 (s.slotOffset c.slot k))) s
    let toCommit : Prop := (s.cfg h.domain).enabled = true ∧ (s.cfg h.domain).commitAddr = s.port.cycle.addr
    (tagged → r.state = .opened → ¬ toCommit →
      settles { active with port := { s.port with stage := .store } }
      ∧ (s.memPort.stopped = false → ∃ t, exec (.copyComplete f) s = .next t
          ∧ t.memPort.access = some (hostStoreOf s.port.cycle)))
    ∧ (tagged → r.state = .opened → toCommit → r.backlog ≠ 0 →
      settles { active with port := { s.port with stage := .backlog }, memPort := { s.memPort with boost := true } })
    ∧ (tagged → r.state = .opened → toCommit → r.backlog = 0 → s.indexed h.region h.record = some c.slot →
      let old : Word := Memory.word (s.completed f a).memory (BitVec.ofNat 19 (s.slotOffset c.slot (4 + h.offset)))
      ((s.cfg h.domain).guardMode.Accepts old (s.port.cycle.merged old) →
        settles { active with
          port := { s.port with stage := .commitStore }
          memPort := { s.memPort with boost := false }
          domains := s.domains.set h.domain { r with state := .committing, timer := 0 } })
      ∧ (¬ (s.cfg h.domain).guardMode.Accepts old (s.port.cycle.merged old) → r.members ≠ [] →
        (∀ j ∈ r.members, j ≠ c.slot → (s.slot j).state ≠ .copying) →
        settles { dropped s with
          domains := s.domains.set h.domain (r.rolledBack .guard)
          pool := movedPool .active .restoring r.members (s.pool.set c.slot { e with state := .active }) }))
    ∧ (∀ st i rest, tagged → r.state = .rolling → r.stream = some st → st.slot = none → r.restoreList = i :: rest →
      (∀ j ∈ r.restoreList, j ≠ c.slot → (s.slot j).state ≠ .copying) →
      settles { dropped s with
        pool := s.pool.set c.slot { e with state := .restoring }
        domains := s.domains.set h.domain { r with
          restoreList := rest
          stream := some { st with slot := some i, pos := .read 0, back := false } } })
    ∧ (notBlank → r.state = .opened →
      let others : List Nat := r.members.erase c.slot
      let kept (d : Fin 4) : Runtime :=
        if d = h.domain then { r with
          members := others
          state := if others = [] then .idle else .opened
          timer := if others = [] then 0 else r.timer }
        else s.dom d
      let struck (d : Fin 4) : Bool := (s.cfg d).strict && decide ((kept d).state = .opened)
      (∀ d, struck d = true →
        (kept d).members ≠ [] ∧ ∀ i ∈ (kept d).members, i ≠ c.slot → (s.slot i).state ≠ .copying) →
      settles { s.completed f a with
        freeQueue := c.slot :: s.freeQueue
        slotIndex := unindexed
        port := s.port.ended (.block .onceUsed)
        events := (record (reported .onceUsed) s).events
        domains := Vector.ofFn fun d : Fin 4 => if struck d then (kept d).rolledBack .stray else kept d
        pool := movedPool .active .restoring
          (([0, 1, 2, 3] : List (Fin 4)).flatMap fun d => if struck d then (kept d).members else [])
          (s.pool.set c.slot (entry .free)) })
    ∧ (∀ k, faultAt k → r.state = .opened →
      (r.members.erase c.slot = [] →
        settles { dropped (faulted k) with
          slotIndex := unindexed
          pool := s.pool.set c.slot (entry .bad)
          events := (record (.aborted h.domain (r.committed + 1) .media 0)
            (record (reported .dropped) (faulted k))).events
          domains := s.domains.set h.domain { r with
            state := if (s.cfg h.domain).fence then .fenced else .idle
            timer := 0, members := [], restoreList := [], stream := none } })
      ∧ (r.members.erase c.slot ≠ [] → (∀ j ∈ r.members.erase c.slot, j ≠ c.slot → (s.slot j).state ≠ .copying) →
        settles { dropped (faulted k) with
          slotIndex := unindexed
          pool := movedPool .active .restoring (r.members.erase c.slot) (s.pool.set c.slot (entry .bad))
          domains := s.domains.set h.domain
            (({ r with members := r.members.erase c.slot } : Runtime).rolledBack .media) }))
    ∧ ∀ st : RestoreStream, r.state = .rolling → r.stream = some st → st.slot = none →
      (∀ j ∈ r.restoreList.erase c.slot, j ≠ c.slot → (s.slot j).state ≠ .copying) →
      let rolls (free : List Nat) (slot : PoolEntry) (u : State) : Prop :=
        settles { dropped u with
          freeQueue := free
          slotIndex := unindexed
          pool := s.pool.set c.slot slot
          events :=
            if r.restoreList.erase c.slot = [] then
              (record (.aborted h.domain st.epoch st.cause st.restored) (record (reported .dropped) u)).events
            else (record (reported .dropped) u).events
          domains := s.domains.set h.domain
            (match r.restoreList.erase c.slot with
            | [] => { r with
                state := if (s.cfg h.domain).fence then .fenced else .idle, restoreList := [], stream := none }
            | i :: rest => { r with
                restoreList := rest, stream := some { st with slot := some i, pos := .read 0, back := false } }) }
      (notBlank → rolls (c.slot :: s.freeQueue) (entry .free) s)
      ∧ ∀ k, faultAt k → rolls s.freeQueue (entry .bad) (faulted k)

/-- EPOCH_WRITE_COMPLETE, the commit (R20, R30): the epoch advances by one, the members go RETIRING onto the Retire Queue and
leave the Slot Index, the backlog is their number, the domain is IDLE, COMMITTED is recorded, the cycle ends. With verify on
the word is read back first (R94), and one read back wrong is a media fault (R42, R100): the members are STRANDED, the domain
FAILED, the write stored. The model's own choices in it: log 6, 7, 26. -/
def Obligations.EpochWriteCommits : Prop :=
  ∀ (s : State) (f : Option Word) (a : Access) (c : CommitStream), s.InProgress .commit a → s.mode ≠ .starting →
    s.mode ≠ .frozen → s.commit = some c → s.port.NoneFollows →
    let r : Runtime := s.dom c.domain
    (s.layout.verify = true → c.back = false → a.write = true → s.NoCycleWaits →
      ∃ t, exec (.memoryAccessComplete f) s = .next t
        ∧ Granted { s.completed f a with commit := some { c with back := true } } t)
    ∧ (s.WordDone s.layout.verify c.back f a (r.committed + 1) →
      ∃ t, exec (.epochWriteComplete f) s = .next t
        ∧ Granted { s.completed f a with
            commit := none
            pool := movedPool .active .retiring r.members s.pool
            retireQueue := s.retireQueue ++ r.members
            slotIndex := s.slotIndex.filter fun x => decide (x.slot ∉ r.members)
            domains := s.domains.set c.domain { r with
              state := .idle, committed := r.committed + 1, backlog := r.members.length, members := [] }
            events := (record (.committed c.domain (r.committed + 1) r.members.length) s).events
            port := s.port.ended .pass } t)
    ∧ (s.WordFails s.layout.verify c.back f a (r.committed + 1) →
      ∃ t, exec (.epochWriteComplete f) s = .next t
        ∧ Granted { s.completed f a with
            commit := none
            pool := movedPool .active .stranded r.members s.pool
            domains := s.domains.set c.domain { r with state := .failed, members := [] }
            events := (record (.domainFailed c.domain (r.committed + 1)) (record (.mediaFault .commit none
              (BitVec.ofNat 19 (logStartOf s.loc + (256 + c.domain.val)))) s)).events
            port := s.port.ended .pass } t)

/-- RETIRE_COMPLETE (R24, R29, R60, R97): with verify on the cleared tag is read back first (R94); then the slot at the head of the
Retire Queue becomes FREE at the tail of the Free Queue, or BAD on a media fault, and its domain's backlog falls by one. A
write that waits for a slot takes it and joins; a commit attempt that waits for backlog has its guard evaluated when the
backlog reaches zero, and is dropped with an abort GUARD when the guard fails. The model's own choices in it: log 6, 7, 14,
16. -/
def Obligations.RetireFreesTheSlot : Prop :=
  ∀ (s : State) (f : Option Word) (a : Access) (i : Nat) (rest : List Nat), s.InProgress .retire a → s.mode ≠ .starting →
    s.mode ≠ .frozen → s.NoCycleWaits → s.retireQueue = i :: rest →
    let d : Fin 4 := (s.slot i).domain
    let lowered : Vector Runtime 4 := s.domains.set d { s.dom d with backlog := (s.dom d).backlog - 1 }
    let done : Prop := s.WordDone s.layout.verify s.retireBack f a 0
    let freed : PoolEntry := { state := .free, domain := 0, epoch := 0, region := 0, record := 0 }
    (s.layout.verify = true → s.retireBack = false → a.write = true → ∃ t, exec (.memoryAccessComplete f) s = .next t
      ∧ Granted { s.completed f a with retireBack := true } t)
    ∧ (done → s.NoWriteWaits → ∃ t, exec (.retireComplete f) s = .next t
      ∧ Granted { s.completed f a with
          retireQueue := rest, retireBack := false, pool := s.pool.set i freed, freeQueue := s.freeQueue ++ [i]
          domains := lowered } t)
    ∧ (s.WordFails s.layout.verify s.retireBack f a 0 → s.NoWriteWaits → ∃ t, exec (.retireComplete f) s = .next t
      ∧ Granted { s.completed f a with
          retireQueue := rest, retireBack := false, pool := s.pool.set i { freed with state := .bad }
          domains := lowered
          events := (record (.mediaFault .retire (some i) (s.slotAddr i 0)) s).events } t)
    ∧ (∀ h, done → s.port.state = .deciding → s.port.disp = some .journal → s.port.cls = some (.hit h) →
      s.port.stage = .slot → s.freeQueue = [] → ∃ t, exec (.retireComplete f) s = .next t
      ∧ Granted { s.completed f a with
          retireQueue := rest, retireBack := false, freeQueue := []
          slotIndex := s.slotIndex ++ [{ region := h.region, record := h.record, slot := i }]
          copy := some { slot := i, pos := .read 0, back := false, sum := 0 }
          port := { s.port with stage := .copy }
          memPort := { s.memPort with access := none, boost := false }
          pool := s.pool.set i { state := .copying, domain := h.domain, epoch := (s.dom h.domain).committed + 1,
                                 region := h.region, record := h.record }
          domains := lowered.set h.domain { lowered[h.domain] with
            state := .opened
            timer := if (s.dom h.domain).state = .idle then (s.cfg h.domain).deadline.toNat else (s.dom h.domain).timer
            members := (s.dom h.domain).members ++ [i] } } t)
    ∧ ∀ h j, done → s.port.state = .deciding → s.port.disp = some .journal → s.port.cls = some (.hit h) →
      s.port.stage = .backlog → h.domain = d → (s.dom d).backlog = 1 → s.indexed h.region h.record = some j →
      let old : Word := Memory.word (s.completed f a).memory (BitVec.ofNat 19 (s.slotOffset j (4 + h.offset)))
      ((s.cfg d).guardMode.Accepts old (s.port.cycle.merged old) → ∃ t, exec (.retireComplete f) s = .next t
        ∧ Granted { s.completed f a with
            retireQueue := rest, retireBack := false, pool := s.pool.set i freed, freeQueue := s.freeQueue ++ [i]
            port := { s.port with stage := .commitStore }
            memPort := { s.memPort with access := none, boost := false }
            domains := s.domains.set d { s.dom d with backlog := 0, state := .committing, timer := 0 } } t)
      ∧ (¬ (s.cfg d).guardMode.Accepts old (s.port.cycle.merged old) → h.kind ≠ .fixed → s.port.NoneFollows →
        (s.dom d).members ≠ [] → (∀ x ∈ (s.dom d).members, x ≠ i → (s.slot x).state ≠ .copying) →
        ∃ t, exec (.retireComplete f) s = .next t
        ∧ Granted { s.completed f a with
            retireQueue := rest, retireBack := false, freeQueue := s.freeQueue ++ [i]
            port := s.port.ended (.drop .dropped)
            memPort := { s.memPort with access := none, boost := false }
            events := (record (.writeBlocked .dropped s.port.cycle.addr (some h.region) (some d) 1) s).events
            pool := movedPool .active .restoring (s.dom d).members (s.pool.set i freed)
            domains := s.domains.set d (({ s.dom d with backlog := 0 } : Runtime).rolledBack .guard) } t)

/-- A restore goes word by word: image word k of the slot is read, written to record word k with both lanes and, with verify on, read
back (R94); then image word k + 1 is read, and after the last the tag is cleared, read back too with verify on. So works a
domain's restore stream (R87), each access following at once when nothing else claims, and so the recovery in RESTORE (R124).
The model's own choices in it: log 6, 7. -/
def Obligations.RestoresWorkWordByWord : Prop :=
  ∀ (s : State) (f : Option Word) (a : Access), s.NoCycleWaits →
    let verify : Bool := s.layout.verify
    let works (claimant : Claimant) (size i : Nat) (recordAt : Nat → Nat) (pos : RestorePos) (back : Bool)
        (goesTo : RestorePos → Bool → Access → Prop) : Prop :=
      (∀ k, pos = .read k → a.write = false →
        goesTo (.word k (s.wordRead f a)) false (writeOf claimant (recordAt k) (s.wordRead f a)))
      ∧ (∀ k w, pos = .word k w → verify = true → back = false → a.write = true →
        goesTo (.word k w) true (readOf claimant (recordAt k)))
      ∧ (∀ k w, pos = .word k w → s.WordDone verify back f a w →
        (k + 1 < size → goesTo (.read (k + 1)) false (readOf claimant (s.slotOffset i (4 + (k + 1)))))
        ∧ (size ≤ k + 1 → goesTo .tag false (writeOf claimant (s.slotOffset i 0) 0)))
      ∧ (pos = .tag → verify = true → back = false → a.write = true →
        goesTo .tag true (readOf claimant (s.slotOffset i 0)))
    (∀ d st i, s.InProgress (.restore d) a → s.mode ≠ .starting → (s.dom d).stream = some st → st.slot = some i →
      let region : RegionEntry := s.layout.regions[(s.slot i).region]
      works (.restore d) region.size i (region.wordAt (s.slot i).record) st.pos st.back fun pos back next =>
        ∃ t, exec (.memoryAccessComplete f) s = .next t
          ∧ Granted { s.completed f a with
              domains := s.domains.set d { s.dom d with stream := some { st with pos := pos, back := back } } } t
          ∧ (s.OnlyRestores d → t.memPort.access = some next))
    ∧ ∀ it pos back, s.InProgress .recovery a → s.mode = .starting → s.recovery.pos = .restore it pos back →
      works .recovery it.size it.slot ((s.layout.regions[it.region]).wordAt it.record) pos back fun pos' back' next =>
        ∃ t, exec (.memoryAccessComplete f) s = .next t
          ∧ Granted { s.completed f a with recovery := { s.recovery with pos := .restore it pos' back' } } t
          ∧ (s.memPort.stopped = false → ¬ s.Ready .host → t.memPort.access = some next)

/-- RESTORE_SLOT_COMPLETE (R24, R88, R89, R99): the slot becomes FREE at the tail of the Free Queue, or BAD on a media fault of its
tag, leaves the Slot Index and is counted; a write that waits for a slot takes the freed one; the stream takes the next slot,
or the rollback ends FENCED or IDLE with ABORTED. A record word read back wrong fails the domain (R42, R98): the slot and the
rest of the list are STRANDED. The model's own choices in it: log 6, 7, 14. -/
def Obligations.RestoredSlotsAreFreed : Prop :=
  ∀ (s : State) (f : Option Word) (a : Access) (d : Fin 4) (st : RestoreStream) (i : Nat), s.InProgress (.restore d) a →
    s.mode ≠ .starting → s.mode ≠ .frozen → s.NoCycleWaits → (s.dom d).stream = some st → st.slot = some i →
    let r : Runtime := s.dom d
    let entry (state : SlotState) : PoolEntry := { state := state, domain := 0, epoch := 0, region := 0, record := 0 }
    let left : List IndexEntry := s.slotIndex.filter fun x => decide (x.slot ≠ i)
    let media (at' : Addr) : State := record (.mediaFault .restore (some i) at') s
    let onward : Runtime := match r.restoreList with
      | [] => { r with state := if (s.cfg d).fence then .fenced else .idle, stream := none }
      | j :: rest => { r with
          restoreList := rest
          stream := some { st with slot := some j, pos := .read 0, back := false, restored := st.restored + 1 } }
    let closing (u : State) : List EventRec :=
      if r.restoreList = [] then (record (.aborted d st.epoch st.cause (st.restored + 1)) u).events else u.events
    (st.pos = .tag → (∀ x ∈ r.restoreList, x ≠ i → (s.slot x).state ≠ .copying) →
      (s.WordDone s.layout.verify st.back f a 0 →
        (s.NoWriteWaits → ∃ t, exec (.restoreSlotComplete f) s = .next t
          ∧ Granted { s.completed f a with
              pool := s.pool.set i (entry .free), freeQueue := s.freeQueue ++ [i], slotIndex := left
              events := closing s
              domains := s.domains.set d onward } t)
        ∧ (∀ h, s.port.state = .deciding → s.port.disp = some .journal → s.port.cls = some (.hit h) →
          s.port.stage = .slot → s.freeQueue = [] → h.domain ≠ d → i ∉ r.restoreList →
          ∃ t, exec (.restoreSlotComplete f) s = .next t
          ∧ Granted { s.completed f a with
              freeQueue := []
              slotIndex := left ++ [{ region := h.region, record := h.record, slot := i }]
              copy := some { slot := i, pos := .read 0, back := false, sum := 0 }
              port := { s.port with stage := .copy }
              memPort := { s.memPort with access := none, boost := false }
              pool := s.pool.set i { state := .copying, domain := h.domain, epoch := (s.dom h.domain).committed + 1,
                                     region := h.region, record := h.record }
              events := closing s
              domains := (s.domains.set d onward).set h.domain { s.dom h.domain with
                state := .opened
                timer := if (s.dom h.domain).state = .idle then (s.cfg h.domain).deadline.toNat else (s.dom h.domain).timer
                members := (s.dom h.domain).members ++ [i] } } t))
      ∧ (s.WordFails s.layout.verify st.back f a 0 → s.NoWriteWaits → ∃ t, exec (.restoreSlotComplete f) s = .next t
          ∧ Granted { s.completed f a with
              pool := s.pool.set i (entry .bad), slotIndex := left
              events := closing (media (BitVec.ofNat 19 (s.slotOffset i 0)))
              domains := s.domains.set d onward } t))
    ∧ ∀ k w, st.pos = .word k w → s.WordFails s.layout.verify st.back f a w → s.NoWriteWaits →
      ∃ t, exec (.memoryAccessComplete f) s = .next t
        ∧ Granted { s.completed f a with
            pool := movedPool .restoring .stranded (i :: r.restoreList) s.pool
            events := (record (.domainFailed d st.epoch) (record (.aborted d st.epoch st.cause st.restored)
              (media (BitVec.ofNat 19 ((s.layout.regions[(s.slot i).region]).wordAt (s.slot i).record k))))).events
            domains := s.domains.set d { r with state := .failed, restoreList := [], stream := none } } t

/-! ### Start-up and installation -/

/-- LOAD (R120, R121, R127): the words of both copies are read one after the other, and the 256th decides. With no valid copy
STARTING ends in UNCONFIGURED, recorded, the pending operation answered, and the Host Port is released (R68, R70). With one or
both the choice is made: the epoch words of its enabled domains are read one by one, and after the last of them, or at once when
no domain is enabled, LOAD_COMPLETE makes the chosen layout active and SCAN begins at slot 0. The model's own choices in it:
log 6, 7. -/
def Obligations.LoadChoosesACopy : Prop :=
  ∀ (s : State) (f : Option Word) (a : Access), s.InProgress .recovery a → s.mode = .starting → a.write = false →
    s.NoCycleWaits →
    let data : Word := s.wordRead f a
    let goesTo (r : Recovery) : Prop :=
      ∃ t, exec (.memoryAccessComplete f) s = .next t ∧ Granted { s.completed f a with recovery := r } t
    let adopts (c : Chosen) (epochs : Vector Word 4) : Prop :=
      0 < c.layout.geometry.slots → ∃ t, exec (.loadComplete f) s = .next t
        ∧ Granted { s.completed f a with
            layout := c.layout, activeCopy := some c.copy, activeSequence := c.sequence, geometry := c.layout.geometry
            recovery := { s.recovery with
              chosen := some c, epochs := epochs, phase := .scan, scanPos := 0, pos := .scan .tag false } } t
    (∀ ws, s.recovery.pos = .copies ws → ws.length < 255 → goesTo { s.recovery with pos := .copies (ws ++ [data]) })
    ∧ (∀ ws, s.recovery.pos = .copies ws → ws.length = 255 →
      let copyA := readCopy (logStartOf s.loc) (ws.take 128)
      let copyB := readCopy (logStartOf s.loc) (ws.drop 128 ++ [data])
      (copyA = none → copyB = none →
        ∃ t, exec (.loadComplete f) s = .next t
          ∧ State.Released { s.completed f a with
              mode := .unconfigured
              recovery := { s.recovery with restoredDomains := Vector.replicate 4 false, pos := .idle }
              events := (record (.unconfigured s.recovery.startKind) s).events
              link := match s.link.pendingOp with
                | .none => s.link
                | .restart tag => { s.link with
                    pendingOp := .none, result := { tag := tag, code := 0x3F, result := .ok, data := [] } }
                | .install tag => { s.link with
                    pendingOp := .none, result := { tag := tag, code := 0x14, result := .none, data := [] } } } t)
      ∧ (∀ c : Chosen,
        (∃ qa la, copyA = some (qa, la) ∧ c = { copy := .a, sequence := qa, layout := la }
          ∧ ∀ qb lb, copyB = some (qb, lb) → ¬ (1 ≤ (qb - qa).toNat ∧ (qb - qa).toNat ≤ 32767))
        ∨ (∃ qb lb, copyB = some (qb, lb) ∧ c = { copy := .b, sequence := qb, layout := lb }
          ∧ ∀ qa la, copyA = some (qa, la) → 1 ≤ (qb - qa).toNat ∧ (qb - qa).toNat ≤ 32767) →
        (∀ d rest, c.layout.enabledDomains = d :: rest →
          goesTo { s.recovery with chosen := some c, pos := .epochs (d :: rest) })
        ∧ (c.layout.enabledDomains = [] → adopts c s.recovery.epochs)))
    ∧ ∀ d rest c, s.recovery.pos = .epochs (d :: rest) → s.recovery.chosen = some c →
      (∀ e more, rest = e :: more →
        goesTo { s.recovery with epochs := s.recovery.epochs.set d data, pos := .epochs (e :: more) })
      ∧ (rest = [] → adopts c (s.recovery.epochs.set d data))

/-- SCAN (R122, R123): a zero tag is free; a corrupt tag, a tag of a domain not enabled or a bad locator leads to a clear counted
STALE; a live slot is judged by its check, its epoch and the recovery list: TORN, DISCARDED, listed, or STALE. With verify on a
cleared tag is read back first (R94). A cleared slot is free and counted; a clear read back wrong is a media fault and the slot
is BAD. SCAN then goes to the next slot, and after the last to RESTORE (R124), or, with nothing listed, to the end of STARTING
(R126). The model's own choices in it: log 6, 7, 25. -/
def Obligations.ScanJudgesEachSlot : Prop :=
  ∀ (s : State) (f : Option Word) (a : Access) (p : ScanPos) (back : Bool), s.InProgress .recovery a → s.mode = .starting →
    s.NoCycleWaits → s.recovery.pos = .scan p back → s.recovery.phase = .scan →
    let r : Recovery := s.recovery
    let data : Word := s.wordRead f a
    let settled (o : SlotOutcome) (list : List RecItem) (counts : Counts) (events : List EventRec) : Prop :=
      let judged (phase : Phase) (pos : RecPos) : State := { s.completed f a with
        events := events
        recovery := { r with
          outcomes := r.outcomes ++ [o], list := list, counts := counts, scanPos := r.scanPos + 1, phase := phase, pos := pos } }
      ∃ t, exec (.scanSlotJudged f) s = .next t
        ∧ (r.scanPos + 1 < s.geometry.slots → Granted (judged .scan (.scan .tag false)) t)
        ∧ (s.geometry.slots ≤ r.scanPos + 1 → (judged .restore r.pos).RestoresOn t)
    let goesTo (p' : ScanPos) (back' : Bool) : Prop :=
      ∃ t, exec (.memoryAccessComplete f) s = .next t
        ∧ Granted { s.completed f a with recovery := { r with pos := .scan p' back' } } t
    let live (d : Fin 4) : Word := 0xA600 + BitVec.ofNat 16 d.val
    (p = .tag → a.write = false →
      (data = 0 → settled .free r.list r.counts s.events)
      ∧ (data ≠ 0 → (∀ d, data = live d → (s.cfg d).enabled = false) → goesTo (.clear .stale) false)
      ∧ (∀ d, data = live d → (s.cfg d).enabled = true → goesTo (.epoch d) false))
    ∧ (∀ d, p = .epoch d → a.write = false → goesTo (.locator d data) false)
    ∧ (∀ d epoch, p = .locator d epoch → a.write = false →
      let e : RegionEntry := s.layout.regions[locatorRegion data]
      let valid : Prop := e.active = true ∧ e.kind ≠ .fixed ∧ e.domain = d ∧ data.toNat % 4096 < e.count
      (valid → goesTo (.check d epoch data) false) ∧ (¬ valid → goesTo (.clear .stale) false))
    ∧ (∀ d epoch loc, p = .check d epoch loc → a.write = false → goesTo (.image d epoch loc data 0 0) false)
    ∧ (∀ d epoch loc chk k sum, p = .image d epoch loc chk k sum → a.write = false →
      let e : RegionEntry := s.layout.regions[locatorRegion loc]
      let sound : Prop := ~~~ (epoch + loc + (sum + data)) = chk
      let listed : Prop := ∃ it ∈ r.list, it.region = locatorRegion loc ∧ it.record = loc.toNat % 4096
      (k + 1 < e.size → goesTo (.image d epoch loc chk (k + 1) (sum + data)) false)
      ∧ (e.size ≤ k + 1 →
        (¬ sound → goesTo (.clear .torn) false)
        ∧ (sound → epoch = r.epochs[d] → goesTo (.clear .discarded) false)
        ∧ (sound → epoch ≠ r.epochs[d] → epoch ≠ r.epochs[d] + 1 ∨ listed → goesTo (.clear .stale) false)
        ∧ (sound → epoch = r.epochs[d] + 1 → ¬ listed → settled .listed
            (r.list ++ [{ slot := r.scanPos, domain := d, epoch := epoch, region := locatorRegion loc,
                          record := loc.toNat % 4096, size := e.size }]) r.counts s.events)))
    ∧ ∀ j, p = .clear j →
      (s.layout.verify = true → back = false → a.write = true → goesTo (.clear j) true)
      ∧ (s.WordDone s.layout.verify back f a 0 → settled .free r.list (r.counts.add j) s.events)
      ∧ (s.WordFails s.layout.verify back f a 0 → settled .bad r.list
          { r.counts.add j with bad := (r.counts.add j).bad + 1 }
          (record (.mediaFault .recovery (some r.scanPos) (BitVec.ofNat 19 (s.slotOffset r.scanPos 0))) s).events)

/-- RESTORE (R124, R125, R126): a slot whose tag is cleared is free, one whose clear is read back wrong a media fault and BAD; both
are counted restored and their domain is remembered. A record word read back wrong is a media fault that strands the slot and
its domain's listed ones and fails the domain. The next listed slot follows from the highest number down; after the last
STARTING ends in GUARDING with the domains, the pool, the Free Queue and the Slot Index rebuilt, DOMAIN_FAILED for each failed
domain and RECOVERED recorded, the pending operation answered and the Host Port released (R68, R70). The model's own choices in
it: log 6, 7, 25. -/
def Obligations.RecoveryRestoresAndEndsStarting : Prop :=
  ∀ (s : State) (f : Option Word) (a : Access) (it : RecItem) (pos : RestorePos) (back : Bool), s.InProgress .recovery a →
    s.mode = .starting → s.NoCycleWaits → s.recovery.pos = .restore it pos back → s.recovery.phase = .restore →
    let r : Recovery := s.recovery
    let goesOn (u : State) : Prop := ∃ t, exec (.recoveryRestoreComplete f) s = .next t ∧ u.RestoresOn t
    let restored (o : SlotOutcome) (bad : Nat) : Recovery := { r with
      outcomes := r.outcomes.set it.slot o
      counts := { r.counts with restored := r.counts.restored + 1, bad := r.counts.bad + bad }
      restoredDomains := r.restoredDomains.set it.domain true }
    let fault (addr : Nat) : List EventRec :=
      (record (.mediaFault .recovery (some it.slot) (BitVec.ofNat 19 addr)) s).events
    (pos = .tag → s.WordDone s.layout.verify back f a 0 → goesOn { s.completed f a with recovery := restored .free 0 })
    ∧ (pos = .tag → s.WordFails s.layout.verify back f a 0 →
      goesOn { s.completed f a with recovery := restored .bad 1, events := fault (s.slotOffset it.slot 0) })
    ∧ ∀ k w, pos = .word k w → s.WordFails s.layout.verify back f a w →
      let lost : List RecItem := it :: r.list.filter fun x => decide (x.domain = it.domain)
      goesOn { s.completed f a with
        events := fault ((s.layout.regions[it.region]).wordAt it.record k)
        recovery := { r with
          list := r.list.filter fun x => decide (x.domain ≠ it.domain)
          outcomes := lost.foldl (fun o x => o.set x.slot (.stranded x)) r.outcomes
          counts := { r.counts with stranded := r.counts.stranded + lost.length }
          failedDomains := r.failedDomains.set it.domain true } }

/-- INSTALL's steps (R160, R161, R162, R164): the tags of the new pool are cleared one after the other, then the words of the
configuration copy are written, with verify on each read back first; then the epoch words of the enabled domains are read one by
one, and after the last of them, or at once when no domain is enabled, the staged layout is adopted in one step, with every slot
FREE and every enabled domain IDLE at its epoch, INSTALLED recorded, OK posted and the Host Port released (R68). A tag or a copy
word read back wrong ends in a warm restart with INSTALL_FAILED recorded and MEDIA posted. The model's own choices in it: log 6,
7. -/
def Obligations.InstallStepsLeadToTheAdoption : Prop :=
  ∀ (s : State) (f : Option Word) (a : Access) (st : InstallStream) (tag : Byte), s.InProgress .install a →
    s.mode = .installing → s.NoCycleWaits → s.install = some st → s.link.pendingOp = .install tag →
    st.returnMode = .guarding ∨ st.returnMode = .bypass →
    let l : Layout := s.staging
    let goesTo (c : Instr) (st' : InstallStream) : Prop :=
      ∃ t, exec c s = .next t ∧ Granted { s.completed f a with install := some st' } t
    let word (k : Nat) : Word := (copyWords st.sequence l).getD k 0
    let adopts (c : Instr) (epochs : Vector Word 4) : Prop :=
      ∃ t, exec c s = .next t
        ∧ State.Released { s.completed f a with
            mode := st.returnMode
            install := none
            layout := l
            geometry := l.geometry
            pool := List.replicate l.geometry.slots { state := .free, domain := 0, epoch := 0, region := 0, record := 0 }
            freeQueue := List.range l.geometry.slots
            slotIndex := []
            retireQueue := []
            domains := Vector.ofFn fun e : Fin 4 =>
              if l.domains[e].enabled then
                { state := .idle, committed := epochs[e], members := [], backlog := 0, timer := 0, restoreList := []
                  stream := none }
              else .discarded
            activeCopy := some st.target
            activeSequence := st.sequence
            events := (record (.installed st.sequence) s).events
            link := { s.link with
              pendingOp := .none, result := { tag := tag, code := 0x14, result := .ok, data := [] } } } t
    let fails (detail : InstallDetail) (addr : Nat) : Prop :=
      s.resetAsserted = false → s.port.state = .vacant ∨ s.port.state = .held ∨ s.port.state = .closing →
      ∃ t, exec (.memoryAccessComplete f) s = .next t
        ∧ t.mode = .starting ∧ t.recovery.startKind = .warm ∧ t.recovery.phase = .load ∧ t.recovery.pos = .copies []
        ∧ t.install = none ∧ t.staging = s.staging ∧ t.memory = (s.completed f a).memory ∧ t.port = s.port
        ∧ t.recovery.restoredDomains = s.recovery.restoredDomains ∧ (∀ d, t.dom d = .discarded) ∧ t.pool = []
        ∧ t.events = (record (.installFailed detail) (record (.mediaFault .install none (BitVec.ofNat 19 addr)) s)).events
        ∧ t.link = { s.link with
            pendingOp := .none, result := { tag := tag, code := 0x14, result := .media, data := [] } }
    (l.verify = true → st.back = false → a.write = true → (∀ ds, st.step ≠ .epochs ds) →
      goesTo (.memoryAccessComplete f) { st with back := true })
    ∧ (∀ i, st.step = .tags i → s.WordDone l.verify st.back f a 0 →
      (i + 1 < l.geometry.slots → goesTo (.memoryAccessComplete f) { st with step := .tags (i + 1), back := false })
      ∧ (l.geometry.slots ≤ i + 1 → goesTo (.installTagsComplete f) { st with step := .copy 0, back := false }))
    ∧ (∀ k, st.step = .copy k → s.WordDone l.verify st.back f a (word k) →
      (k < 127 → goesTo (.memoryAccessComplete f) { st with step := .copy (k + 1), back := false })
      ∧ (k = 127 → ∀ d rest, l.enabledDomains = d :: rest →
        goesTo (.installCopyComplete f) { st with step := .epochs (d :: rest), back := false })
      ∧ (k = 127 → l.enabledDomains = [] → adopts (.installCopyComplete f) st.epochs))
    ∧ (∀ d rest, st.step = .epochs (d :: rest) → a.write = false →
      (∀ e more, rest = e :: more → goesTo (.memoryAccessComplete f)
        { st with step := .epochs (e :: more), epochs := st.epochs.set d (s.wordRead f a) })
      ∧ (rest = [] → adopts (.installEpochsComplete f) (st.epochs.set d (s.wordRead f a))))
    ∧ (∀ i, st.step = .tags i → s.WordFails l.verify st.back f a 0 →
      fails .tags (logStartOf s.loc + (260 + i * l.geometry.stride)))
    ∧ ∀ k, st.step = .copy k → s.WordFails l.verify st.back f a (word k) →
      fails .copy (logStartOf s.loc + (k + if st.target = .a then 0 else 128))
end

