-- ==== Sys2Proof/Laws/State.lean ====
section
/-! SUPPORT. One lemma per field of State per plain update of it: what each update leaves as it was. -/

namespace Sys2Proof.Machine

/-! ### State.setDom changes `domains` only -/

@[simp] theorem State.setDom_powered (s : State) (d : Fin 4) (r : Runtime) : (s.setDom d r).powered = s.powered := rfl
@[simp] theorem State.setDom_pfwAsserted (s : State) (d : Fin 4) (r : Runtime) : (s.setDom d r).pfwAsserted = s.pfwAsserted := rfl
@[simp] theorem State.setDom_resetAsserted (s : State) (d : Fin 4) (r : Runtime) : (s.setDom d r).resetAsserted = s.resetAsserted := rfl
@[simp] theorem State.setDom_resetTaken (s : State) (d : Fin 4) (r : Runtime) : (s.setDom d r).resetTaken = s.resetTaken := rfl
@[simp] theorem State.setDom_straps (s : State) (d : Fin 4) (r : Runtime) : (s.setDom d r).straps = s.straps := rfl
@[simp] theorem State.setDom_loc (s : State) (d : Fin 4) (r : Runtime) : (s.setDom d r).loc = s.loc := rfl
@[simp] theorem State.setDom_mt (s : State) (d : Fin 4) (r : Runtime) : (s.setDom d r).mt = s.mt := rfl
@[simp] theorem State.setDom_mode (s : State) (d : Fin 4) (r : Runtime) : (s.setDom d r).mode = s.mode := rfl
@[simp] theorem State.setDom_recovery (s : State) (d : Fin 4) (r : Runtime) : (s.setDom d r).recovery = s.recovery := rfl
@[simp] theorem State.setDom_layout (s : State) (d : Fin 4) (r : Runtime) : (s.setDom d r).layout = s.layout := rfl
@[simp] theorem State.setDom_activeCopy (s : State) (d : Fin 4) (r : Runtime) : (s.setDom d r).activeCopy = s.activeCopy := rfl
@[simp] theorem State.setDom_activeSequence (s : State) (d : Fin 4) (r : Runtime) : (s.setDom d r).activeSequence = s.activeSequence := rfl
@[simp] theorem State.setDom_geometry (s : State) (d : Fin 4) (r : Runtime) : (s.setDom d r).geometry = s.geometry := rfl
@[simp] theorem State.setDom_pool (s : State) (d : Fin 4) (r : Runtime) : (s.setDom d r).pool = s.pool := rfl
@[simp] theorem State.setDom_freeQueue (s : State) (d : Fin 4) (r : Runtime) : (s.setDom d r).freeQueue = s.freeQueue := rfl
@[simp] theorem State.setDom_slotIndex (s : State) (d : Fin 4) (r : Runtime) : (s.setDom d r).slotIndex = s.slotIndex := rfl
@[simp] theorem State.setDom_retireQueue (s : State) (d : Fin 4) (r : Runtime) : (s.setDom d r).retireQueue = s.retireQueue := rfl
@[simp] theorem State.setDom_copy (s : State) (d : Fin 4) (r : Runtime) : (s.setDom d r).copy = s.copy := rfl
@[simp] theorem State.setDom_commit (s : State) (d : Fin 4) (r : Runtime) : (s.setDom d r).commit = s.commit := rfl
@[simp] theorem State.setDom_retireBack (s : State) (d : Fin 4) (r : Runtime) : (s.setDom d r).retireBack = s.retireBack := rfl
@[simp] theorem State.setDom_install (s : State) (d : Fin 4) (r : Runtime) : (s.setDom d r).install = s.install := rfl
@[simp] theorem State.setDom_port (s : State) (d : Fin 4) (r : Runtime) : (s.setDom d r).port = s.port := rfl
@[simp] theorem State.setDom_memPort (s : State) (d : Fin 4) (r : Runtime) : (s.setDom d r).memPort = s.memPort := rfl
@[simp] theorem State.setDom_events (s : State) (d : Fin 4) (r : Runtime) : (s.setDom d r).events = s.events := rfl
@[simp] theorem State.setDom_mask (s : State) (d : Fin 4) (r : Runtime) : (s.setDom d r).mask = s.mask := rfl
@[simp] theorem State.setDom_link (s : State) (d : Fin 4) (r : Runtime) : (s.setDom d r).link = s.link := rfl
@[simp] theorem State.setDom_staging (s : State) (d : Fin 4) (r : Runtime) : (s.setDom d r).staging = s.staging := rfl
@[simp] theorem State.setDom_memory (s : State) (d : Fin 4) (r : Runtime) : (s.setDom d r).memory = s.memory := rfl
@[simp] theorem State.setDom_arrivals (s : State) (d : Fin 4) (r : Runtime) : (s.setDom d r).arrivals = s.arrivals := rfl
@[simp] theorem State.setDom_pending (s : State) (d : Fin 4) (r : Runtime) : (s.setDom d r).pending = s.pending := rfl

/-! ### State.setSlot changes `pool` only -/

@[simp] theorem State.setSlot_powered (s : State) (i : Nat) (e : PoolEntry) : (s.setSlot i e).powered = s.powered := rfl
@[simp] theorem State.setSlot_pfwAsserted (s : State) (i : Nat) (e : PoolEntry) : (s.setSlot i e).pfwAsserted = s.pfwAsserted := rfl
@[simp] theorem State.setSlot_resetAsserted (s : State) (i : Nat) (e : PoolEntry) : (s.setSlot i e).resetAsserted = s.resetAsserted := rfl
@[simp] theorem State.setSlot_resetTaken (s : State) (i : Nat) (e : PoolEntry) : (s.setSlot i e).resetTaken = s.resetTaken := rfl
@[simp] theorem State.setSlot_straps (s : State) (i : Nat) (e : PoolEntry) : (s.setSlot i e).straps = s.straps := rfl
@[simp] theorem State.setSlot_loc (s : State) (i : Nat) (e : PoolEntry) : (s.setSlot i e).loc = s.loc := rfl
@[simp] theorem State.setSlot_mt (s : State) (i : Nat) (e : PoolEntry) : (s.setSlot i e).mt = s.mt := rfl
@[simp] theorem State.setSlot_mode (s : State) (i : Nat) (e : PoolEntry) : (s.setSlot i e).mode = s.mode := rfl
@[simp] theorem State.setSlot_recovery (s : State) (i : Nat) (e : PoolEntry) : (s.setSlot i e).recovery = s.recovery := rfl
@[simp] theorem State.setSlot_layout (s : State) (i : Nat) (e : PoolEntry) : (s.setSlot i e).layout = s.layout := rfl
@[simp] theorem State.setSlot_activeCopy (s : State) (i : Nat) (e : PoolEntry) : (s.setSlot i e).activeCopy = s.activeCopy := rfl
@[simp] theorem State.setSlot_activeSequence (s : State) (i : Nat) (e : PoolEntry) : (s.setSlot i e).activeSequence = s.activeSequence := rfl
@[simp] theorem State.setSlot_geometry (s : State) (i : Nat) (e : PoolEntry) : (s.setSlot i e).geometry = s.geometry := rfl
@[simp] theorem State.setSlot_domains (s : State) (i : Nat) (e : PoolEntry) : (s.setSlot i e).domains = s.domains := rfl
@[simp] theorem State.setSlot_freeQueue (s : State) (i : Nat) (e : PoolEntry) : (s.setSlot i e).freeQueue = s.freeQueue := rfl
@[simp] theorem State.setSlot_slotIndex (s : State) (i : Nat) (e : PoolEntry) : (s.setSlot i e).slotIndex = s.slotIndex := rfl
@[simp] theorem State.setSlot_retireQueue (s : State) (i : Nat) (e : PoolEntry) : (s.setSlot i e).retireQueue = s.retireQueue := rfl
@[simp] theorem State.setSlot_copy (s : State) (i : Nat) (e : PoolEntry) : (s.setSlot i e).copy = s.copy := rfl
@[simp] theorem State.setSlot_commit (s : State) (i : Nat) (e : PoolEntry) : (s.setSlot i e).commit = s.commit := rfl
@[simp] theorem State.setSlot_retireBack (s : State) (i : Nat) (e : PoolEntry) : (s.setSlot i e).retireBack = s.retireBack := rfl
@[simp] theorem State.setSlot_install (s : State) (i : Nat) (e : PoolEntry) : (s.setSlot i e).install = s.install := rfl
@[simp] theorem State.setSlot_port (s : State) (i : Nat) (e : PoolEntry) : (s.setSlot i e).port = s.port := rfl
@[simp] theorem State.setSlot_memPort (s : State) (i : Nat) (e : PoolEntry) : (s.setSlot i e).memPort = s.memPort := rfl
@[simp] theorem State.setSlot_events (s : State) (i : Nat) (e : PoolEntry) : (s.setSlot i e).events = s.events := rfl
@[simp] theorem State.setSlot_mask (s : State) (i : Nat) (e : PoolEntry) : (s.setSlot i e).mask = s.mask := rfl
@[simp] theorem State.setSlot_link (s : State) (i : Nat) (e : PoolEntry) : (s.setSlot i e).link = s.link := rfl
@[simp] theorem State.setSlot_staging (s : State) (i : Nat) (e : PoolEntry) : (s.setSlot i e).staging = s.staging := rfl
@[simp] theorem State.setSlot_memory (s : State) (i : Nat) (e : PoolEntry) : (s.setSlot i e).memory = s.memory := rfl
@[simp] theorem State.setSlot_arrivals (s : State) (i : Nat) (e : PoolEntry) : (s.setSlot i e).arrivals = s.arrivals := rfl
@[simp] theorem State.setSlot_pending (s : State) (i : Nat) (e : PoolEntry) : (s.setSlot i e).pending = s.pending := rfl

/-! ### State.setSlotState changes `pool` only -/

@[simp] theorem State.setSlotState_powered (s : State) (i : Nat) (st : SlotState) : (s.setSlotState i st).powered = s.powered := rfl
@[simp] theorem State.setSlotState_pfwAsserted (s : State) (i : Nat) (st : SlotState) : (s.setSlotState i st).pfwAsserted = s.pfwAsserted := rfl
@[simp] theorem State.setSlotState_resetAsserted (s : State) (i : Nat) (st : SlotState) : (s.setSlotState i st).resetAsserted = s.resetAsserted := rfl
@[simp] theorem State.setSlotState_resetTaken (s : State) (i : Nat) (st : SlotState) : (s.setSlotState i st).resetTaken = s.resetTaken := rfl
@[simp] theorem State.setSlotState_straps (s : State) (i : Nat) (st : SlotState) : (s.setSlotState i st).straps = s.straps := rfl
@[simp] theorem State.setSlotState_loc (s : State) (i : Nat) (st : SlotState) : (s.setSlotState i st).loc = s.loc := rfl
@[simp] theorem State.setSlotState_mt (s : State) (i : Nat) (st : SlotState) : (s.setSlotState i st).mt = s.mt := rfl
@[simp] theorem State.setSlotState_mode (s : State) (i : Nat) (st : SlotState) : (s.setSlotState i st).mode = s.mode := rfl
@[simp] theorem State.setSlotState_recovery (s : State) (i : Nat) (st : SlotState) : (s.setSlotState i st).recovery = s.recovery := rfl
@[simp] theorem State.setSlotState_layout (s : State) (i : Nat) (st : SlotState) : (s.setSlotState i st).layout = s.layout := rfl
@[simp] theorem State.setSlotState_activeCopy (s : State) (i : Nat) (st : SlotState) : (s.setSlotState i st).activeCopy = s.activeCopy := rfl
@[simp] theorem State.setSlotState_activeSequence (s : State) (i : Nat) (st : SlotState) : (s.setSlotState i st).activeSequence = s.activeSequence := rfl
@[simp] theorem State.setSlotState_geometry (s : State) (i : Nat) (st : SlotState) : (s.setSlotState i st).geometry = s.geometry := rfl
@[simp] theorem State.setSlotState_domains (s : State) (i : Nat) (st : SlotState) : (s.setSlotState i st).domains = s.domains := rfl
@[simp] theorem State.setSlotState_freeQueue (s : State) (i : Nat) (st : SlotState) : (s.setSlotState i st).freeQueue = s.freeQueue := rfl
@[simp] theorem State.setSlotState_slotIndex (s : State) (i : Nat) (st : SlotState) : (s.setSlotState i st).slotIndex = s.slotIndex := rfl
@[simp] theorem State.setSlotState_retireQueue (s : State) (i : Nat) (st : SlotState) : (s.setSlotState i st).retireQueue = s.retireQueue := rfl
@[simp] theorem State.setSlotState_copy (s : State) (i : Nat) (st : SlotState) : (s.setSlotState i st).copy = s.copy := rfl
@[simp] theorem State.setSlotState_commit (s : State) (i : Nat) (st : SlotState) : (s.setSlotState i st).commit = s.commit := rfl
@[simp] theorem State.setSlotState_retireBack (s : State) (i : Nat) (st : SlotState) : (s.setSlotState i st).retireBack = s.retireBack := rfl
@[simp] theorem State.setSlotState_install (s : State) (i : Nat) (st : SlotState) : (s.setSlotState i st).install = s.install := rfl
@[simp] theorem State.setSlotState_port (s : State) (i : Nat) (st : SlotState) : (s.setSlotState i st).port = s.port := rfl
@[simp] theorem State.setSlotState_memPort (s : State) (i : Nat) (st : SlotState) : (s.setSlotState i st).memPort = s.memPort := rfl
@[simp] theorem State.setSlotState_events (s : State) (i : Nat) (st : SlotState) : (s.setSlotState i st).events = s.events := rfl
@[simp] theorem State.setSlotState_mask (s : State) (i : Nat) (st : SlotState) : (s.setSlotState i st).mask = s.mask := rfl
@[simp] theorem State.setSlotState_link (s : State) (i : Nat) (st : SlotState) : (s.setSlotState i st).link = s.link := rfl
@[simp] theorem State.setSlotState_staging (s : State) (i : Nat) (st : SlotState) : (s.setSlotState i st).staging = s.staging := rfl
@[simp] theorem State.setSlotState_memory (s : State) (i : Nat) (st : SlotState) : (s.setSlotState i st).memory = s.memory := rfl
@[simp] theorem State.setSlotState_arrivals (s : State) (i : Nat) (st : SlotState) : (s.setSlotState i st).arrivals = s.arrivals := rfl
@[simp] theorem State.setSlotState_pending (s : State) (i : Nat) (st : SlotState) : (s.setSlotState i st).pending = s.pending := rfl

/-! ### State.unindex changes `slotIndex` only -/

@[simp] theorem State.unindex_powered (s : State) (i : Nat) : (s.unindex i).powered = s.powered := rfl
@[simp] theorem State.unindex_pfwAsserted (s : State) (i : Nat) : (s.unindex i).pfwAsserted = s.pfwAsserted := rfl
@[simp] theorem State.unindex_resetAsserted (s : State) (i : Nat) : (s.unindex i).resetAsserted = s.resetAsserted := rfl
@[simp] theorem State.unindex_resetTaken (s : State) (i : Nat) : (s.unindex i).resetTaken = s.resetTaken := rfl
@[simp] theorem State.unindex_straps (s : State) (i : Nat) : (s.unindex i).straps = s.straps := rfl
@[simp] theorem State.unindex_loc (s : State) (i : Nat) : (s.unindex i).loc = s.loc := rfl
@[simp] theorem State.unindex_mt (s : State) (i : Nat) : (s.unindex i).mt = s.mt := rfl
@[simp] theorem State.unindex_mode (s : State) (i : Nat) : (s.unindex i).mode = s.mode := rfl
@[simp] theorem State.unindex_recovery (s : State) (i : Nat) : (s.unindex i).recovery = s.recovery := rfl
@[simp] theorem State.unindex_layout (s : State) (i : Nat) : (s.unindex i).layout = s.layout := rfl
@[simp] theorem State.unindex_activeCopy (s : State) (i : Nat) : (s.unindex i).activeCopy = s.activeCopy := rfl
@[simp] theorem State.unindex_activeSequence (s : State) (i : Nat) : (s.unindex i).activeSequence = s.activeSequence := rfl
@[simp] theorem State.unindex_geometry (s : State) (i : Nat) : (s.unindex i).geometry = s.geometry := rfl
@[simp] theorem State.unindex_domains (s : State) (i : Nat) : (s.unindex i).domains = s.domains := rfl
@[simp] theorem State.unindex_pool (s : State) (i : Nat) : (s.unindex i).pool = s.pool := rfl
@[simp] theorem State.unindex_freeQueue (s : State) (i : Nat) : (s.unindex i).freeQueue = s.freeQueue := rfl
@[simp] theorem State.unindex_retireQueue (s : State) (i : Nat) : (s.unindex i).retireQueue = s.retireQueue := rfl
@[simp] theorem State.unindex_copy (s : State) (i : Nat) : (s.unindex i).copy = s.copy := rfl
@[simp] theorem State.unindex_commit (s : State) (i : Nat) : (s.unindex i).commit = s.commit := rfl
@[simp] theorem State.unindex_retireBack (s : State) (i : Nat) : (s.unindex i).retireBack = s.retireBack := rfl
@[simp] theorem State.unindex_install (s : State) (i : Nat) : (s.unindex i).install = s.install := rfl
@[simp] theorem State.unindex_port (s : State) (i : Nat) : (s.unindex i).port = s.port := rfl
@[simp] theorem State.unindex_memPort (s : State) (i : Nat) : (s.unindex i).memPort = s.memPort := rfl
@[simp] theorem State.unindex_events (s : State) (i : Nat) : (s.unindex i).events = s.events := rfl
@[simp] theorem State.unindex_mask (s : State) (i : Nat) : (s.unindex i).mask = s.mask := rfl
@[simp] theorem State.unindex_link (s : State) (i : Nat) : (s.unindex i).link = s.link := rfl
@[simp] theorem State.unindex_staging (s : State) (i : Nat) : (s.unindex i).staging = s.staging := rfl
@[simp] theorem State.unindex_memory (s : State) (i : Nat) : (s.unindex i).memory = s.memory := rfl
@[simp] theorem State.unindex_arrivals (s : State) (i : Nat) : (s.unindex i).arrivals = s.arrivals := rfl
@[simp] theorem State.unindex_pending (s : State) (i : Nat) : (s.unindex i).pending = s.pending := rfl

/-! ### State.setRecovery changes `recovery` only -/

@[simp] theorem State.setRecovery_powered (s : State) (r : Recovery) : (s.setRecovery r).powered = s.powered := rfl
@[simp] theorem State.setRecovery_pfwAsserted (s : State) (r : Recovery) : (s.setRecovery r).pfwAsserted = s.pfwAsserted := rfl
@[simp] theorem State.setRecovery_resetAsserted (s : State) (r : Recovery) : (s.setRecovery r).resetAsserted = s.resetAsserted := rfl
@[simp] theorem State.setRecovery_resetTaken (s : State) (r : Recovery) : (s.setRecovery r).resetTaken = s.resetTaken := rfl
@[simp] theorem State.setRecovery_straps (s : State) (r : Recovery) : (s.setRecovery r).straps = s.straps := rfl
@[simp] theorem State.setRecovery_loc (s : State) (r : Recovery) : (s.setRecovery r).loc = s.loc := rfl
@[simp] theorem State.setRecovery_mt (s : State) (r : Recovery) : (s.setRecovery r).mt = s.mt := rfl
@[simp] theorem State.setRecovery_mode (s : State) (r : Recovery) : (s.setRecovery r).mode = s.mode := rfl
@[simp] theorem State.setRecovery_layout (s : State) (r : Recovery) : (s.setRecovery r).layout = s.layout := rfl
@[simp] theorem State.setRecovery_activeCopy (s : State) (r : Recovery) : (s.setRecovery r).activeCopy = s.activeCopy := rfl
@[simp] theorem State.setRecovery_activeSequence (s : State) (r : Recovery) : (s.setRecovery r).activeSequence = s.activeSequence := rfl
@[simp] theorem State.setRecovery_geometry (s : State) (r : Recovery) : (s.setRecovery r).geometry = s.geometry := rfl
@[simp] theorem State.setRecovery_domains (s : State) (r : Recovery) : (s.setRecovery r).domains = s.domains := rfl
@[simp] theorem State.setRecovery_pool (s : State) (r : Recovery) : (s.setRecovery r).pool = s.pool := rfl
@[simp] theorem State.setRecovery_freeQueue (s : State) (r : Recovery) : (s.setRecovery r).freeQueue = s.freeQueue := rfl
@[simp] theorem State.setRecovery_slotIndex (s : State) (r : Recovery) : (s.setRecovery r).slotIndex = s.slotIndex := rfl
@[simp] theorem State.setRecovery_retireQueue (s : State) (r : Recovery) : (s.setRecovery r).retireQueue = s.retireQueue := rfl
@[simp] theorem State.setRecovery_copy (s : State) (r : Recovery) : (s.setRecovery r).copy = s.copy := rfl
@[simp] theorem State.setRecovery_commit (s : State) (r : Recovery) : (s.setRecovery r).commit = s.commit := rfl
@[simp] theorem State.setRecovery_retireBack (s : State) (r : Recovery) : (s.setRecovery r).retireBack = s.retireBack := rfl
@[simp] theorem State.setRecovery_install (s : State) (r : Recovery) : (s.setRecovery r).install = s.install := rfl
@[simp] theorem State.setRecovery_port (s : State) (r : Recovery) : (s.setRecovery r).port = s.port := rfl
@[simp] theorem State.setRecovery_memPort (s : State) (r : Recovery) : (s.setRecovery r).memPort = s.memPort := rfl
@[simp] theorem State.setRecovery_events (s : State) (r : Recovery) : (s.setRecovery r).events = s.events := rfl
@[simp] theorem State.setRecovery_mask (s : State) (r : Recovery) : (s.setRecovery r).mask = s.mask := rfl
@[simp] theorem State.setRecovery_link (s : State) (r : Recovery) : (s.setRecovery r).link = s.link := rfl
@[simp] theorem State.setRecovery_staging (s : State) (r : Recovery) : (s.setRecovery r).staging = s.staging := rfl
@[simp] theorem State.setRecovery_memory (s : State) (r : Recovery) : (s.setRecovery r).memory = s.memory := rfl
@[simp] theorem State.setRecovery_arrivals (s : State) (r : Recovery) : (s.setRecovery r).arrivals = s.arrivals := rfl
@[simp] theorem State.setRecovery_pending (s : State) (r : Recovery) : (s.setRecovery r).pending = s.pending := rfl

/-! ### State.setInstall changes `install` only -/

@[simp] theorem State.setInstall_powered (s : State) (st : InstallStream) : (s.setInstall st).powered = s.powered := rfl
@[simp] theorem State.setInstall_pfwAsserted (s : State) (st : InstallStream) : (s.setInstall st).pfwAsserted = s.pfwAsserted := rfl
@[simp] theorem State.setInstall_resetAsserted (s : State) (st : InstallStream) : (s.setInstall st).resetAsserted = s.resetAsserted := rfl
@[simp] theorem State.setInstall_resetTaken (s : State) (st : InstallStream) : (s.setInstall st).resetTaken = s.resetTaken := rfl
@[simp] theorem State.setInstall_straps (s : State) (st : InstallStream) : (s.setInstall st).straps = s.straps := rfl
@[simp] theorem State.setInstall_loc (s : State) (st : InstallStream) : (s.setInstall st).loc = s.loc := rfl
@[simp] theorem State.setInstall_mt (s : State) (st : InstallStream) : (s.setInstall st).mt = s.mt := rfl
@[simp] theorem State.setInstall_mode (s : State) (st : InstallStream) : (s.setInstall st).mode = s.mode := rfl
@[simp] theorem State.setInstall_recovery (s : State) (st : InstallStream) : (s.setInstall st).recovery = s.recovery := rfl
@[simp] theorem State.setInstall_layout (s : State) (st : InstallStream) : (s.setInstall st).layout = s.layout := rfl
@[simp] theorem State.setInstall_activeCopy (s : State) (st : InstallStream) : (s.setInstall st).activeCopy = s.activeCopy := rfl
@[simp] theorem State.setInstall_activeSequence (s : State) (st : InstallStream) : (s.setInstall st).activeSequence = s.activeSequence := rfl
@[simp] theorem State.setInstall_geometry (s : State) (st : InstallStream) : (s.setInstall st).geometry = s.geometry := rfl
@[simp] theorem State.setInstall_domains (s : State) (st : InstallStream) : (s.setInstall st).domains = s.domains := rfl
@[simp] theorem State.setInstall_pool (s : State) (st : InstallStream) : (s.setInstall st).pool = s.pool := rfl
@[simp] theorem State.setInstall_freeQueue (s : State) (st : InstallStream) : (s.setInstall st).freeQueue = s.freeQueue := rfl
@[simp] theorem State.setInstall_slotIndex (s : State) (st : InstallStream) : (s.setInstall st).slotIndex = s.slotIndex := rfl
@[simp] theorem State.setInstall_retireQueue (s : State) (st : InstallStream) : (s.setInstall st).retireQueue = s.retireQueue := rfl
@[simp] theorem State.setInstall_copy (s : State) (st : InstallStream) : (s.setInstall st).copy = s.copy := rfl
@[simp] theorem State.setInstall_commit (s : State) (st : InstallStream) : (s.setInstall st).commit = s.commit := rfl
@[simp] theorem State.setInstall_retireBack (s : State) (st : InstallStream) : (s.setInstall st).retireBack = s.retireBack := rfl
@[simp] theorem State.setInstall_port (s : State) (st : InstallStream) : (s.setInstall st).port = s.port := rfl
@[simp] theorem State.setInstall_memPort (s : State) (st : InstallStream) : (s.setInstall st).memPort = s.memPort := rfl
@[simp] theorem State.setInstall_events (s : State) (st : InstallStream) : (s.setInstall st).events = s.events := rfl
@[simp] theorem State.setInstall_mask (s : State) (st : InstallStream) : (s.setInstall st).mask = s.mask := rfl
@[simp] theorem State.setInstall_link (s : State) (st : InstallStream) : (s.setInstall st).link = s.link := rfl
@[simp] theorem State.setInstall_staging (s : State) (st : InstallStream) : (s.setInstall st).staging = s.staging := rfl
@[simp] theorem State.setInstall_memory (s : State) (st : InstallStream) : (s.setInstall st).memory = s.memory := rfl
@[simp] theorem State.setInstall_arrivals (s : State) (st : InstallStream) : (s.setInstall st).arrivals = s.arrivals := rfl
@[simp] theorem State.setInstall_pending (s : State) (st : InstallStream) : (s.setInstall st).pending = s.pending := rfl

/-! ### post changes `link` only -/

@[simp] theorem post_powered (s : State) (tag code : Byte) (r : ResultCode) (data : List Byte) : (post tag code r data s).powered = s.powered := rfl
@[simp] theorem post_pfwAsserted (s : State) (tag code : Byte) (r : ResultCode) (data : List Byte) : (post tag code r data s).pfwAsserted = s.pfwAsserted := rfl
@[simp] theorem post_resetAsserted (s : State) (tag code : Byte) (r : ResultCode) (data : List Byte) : (post tag code r data s).resetAsserted = s.resetAsserted := rfl
@[simp] theorem post_resetTaken (s : State) (tag code : Byte) (r : ResultCode) (data : List Byte) : (post tag code r data s).resetTaken = s.resetTaken := rfl
@[simp] theorem post_straps (s : State) (tag code : Byte) (r : ResultCode) (data : List Byte) : (post tag code r data s).straps = s.straps := rfl
@[simp] theorem post_loc (s : State) (tag code : Byte) (r : ResultCode) (data : List Byte) : (post tag code r data s).loc = s.loc := rfl
@[simp] theorem post_mt (s : State) (tag code : Byte) (r : ResultCode) (data : List Byte) : (post tag code r data s).mt = s.mt := rfl
@[simp] theorem post_mode (s : State) (tag code : Byte) (r : ResultCode) (data : List Byte) : (post tag code r data s).mode = s.mode := rfl
@[simp] theorem post_recovery (s : State) (tag code : Byte) (r : ResultCode) (data : List Byte) : (post tag code r data s).recovery = s.recovery := rfl
@[simp] theorem post_layout (s : State) (tag code : Byte) (r : ResultCode) (data : List Byte) : (post tag code r data s).layout = s.layout := rfl
@[simp] theorem post_activeCopy (s : State) (tag code : Byte) (r : ResultCode) (data : List Byte) : (post tag code r data s).activeCopy = s.activeCopy := rfl
@[simp] theorem post_activeSequence (s : State) (tag code : Byte) (r : ResultCode) (data : List Byte) : (post tag code r data s).activeSequence = s.activeSequence := rfl
@[simp] theorem post_geometry (s : State) (tag code : Byte) (r : ResultCode) (data : List Byte) : (post tag code r data s).geometry = s.geometry := rfl
@[simp] theorem post_domains (s : State) (tag code : Byte) (r : ResultCode) (data : List Byte) : (post tag code r data s).domains = s.domains := rfl
@[simp] theorem post_pool (s : State) (tag code : Byte) (r : ResultCode) (data : List Byte) : (post tag code r data s).pool = s.pool := rfl
@[simp] theorem post_freeQueue (s : State) (tag code : Byte) (r : ResultCode) (data : List Byte) : (post tag code r data s).freeQueue = s.freeQueue := rfl
@[simp] theorem post_slotIndex (s : State) (tag code : Byte) (r : ResultCode) (data : List Byte) : (post tag code r data s).slotIndex = s.slotIndex := rfl
@[simp] theorem post_retireQueue (s : State) (tag code : Byte) (r : ResultCode) (data : List Byte) : (post tag code r data s).retireQueue = s.retireQueue := rfl
@[simp] theorem post_copy (s : State) (tag code : Byte) (r : ResultCode) (data : List Byte) : (post tag code r data s).copy = s.copy := rfl
@[simp] theorem post_commit (s : State) (tag code : Byte) (r : ResultCode) (data : List Byte) : (post tag code r data s).commit = s.commit := rfl
@[simp] theorem post_retireBack (s : State) (tag code : Byte) (r : ResultCode) (data : List Byte) : (post tag code r data s).retireBack = s.retireBack := rfl
@[simp] theorem post_install (s : State) (tag code : Byte) (r : ResultCode) (data : List Byte) : (post tag code r data s).install = s.install := rfl
@[simp] theorem post_port (s : State) (tag code : Byte) (r : ResultCode) (data : List Byte) : (post tag code r data s).port = s.port := rfl
@[simp] theorem post_memPort (s : State) (tag code : Byte) (r : ResultCode) (data : List Byte) : (post tag code r data s).memPort = s.memPort := rfl
@[simp] theorem post_events (s : State) (tag code : Byte) (r : ResultCode) (data : List Byte) : (post tag code r data s).events = s.events := rfl
@[simp] theorem post_mask (s : State) (tag code : Byte) (r : ResultCode) (data : List Byte) : (post tag code r data s).mask = s.mask := rfl
@[simp] theorem post_staging (s : State) (tag code : Byte) (r : ResultCode) (data : List Byte) : (post tag code r data s).staging = s.staging := rfl
@[simp] theorem post_memory (s : State) (tag code : Byte) (r : ResultCode) (data : List Byte) : (post tag code r data s).memory = s.memory := rfl
@[simp] theorem post_arrivals (s : State) (tag code : Byte) (r : ResultCode) (data : List Byte) : (post tag code r data s).arrivals = s.arrivals := rfl
@[simp] theorem post_pending (s : State) (tag code : Byte) (r : ResultCode) (data : List Byte) : (post tag code r data s).pending = s.pending := rfl

/-! ### clearPending changes `link` only -/

@[simp] theorem clearPending_powered (s : State) : (clearPending s).powered = s.powered := rfl
@[simp] theorem clearPending_pfwAsserted (s : State) : (clearPending s).pfwAsserted = s.pfwAsserted := rfl
@[simp] theorem clearPending_resetAsserted (s : State) : (clearPending s).resetAsserted = s.resetAsserted := rfl
@[simp] theorem clearPending_resetTaken (s : State) : (clearPending s).resetTaken = s.resetTaken := rfl
@[simp] theorem clearPending_straps (s : State) : (clearPending s).straps = s.straps := rfl
@[simp] theorem clearPending_loc (s : State) : (clearPending s).loc = s.loc := rfl
@[simp] theorem clearPending_mt (s : State) : (clearPending s).mt = s.mt := rfl
@[simp] theorem clearPending_mode (s : State) : (clearPending s).mode = s.mode := rfl
@[simp] theorem clearPending_recovery (s : State) : (clearPending s).recovery = s.recovery := rfl
@[simp] theorem clearPending_layout (s : State) : (clearPending s).layout = s.layout := rfl
@[simp] theorem clearPending_activeCopy (s : State) : (clearPending s).activeCopy = s.activeCopy := rfl
@[simp] theorem clearPending_activeSequence (s : State) : (clearPending s).activeSequence = s.activeSequence := rfl
@[simp] theorem clearPending_geometry (s : State) : (clearPending s).geometry = s.geometry := rfl
@[simp] theorem clearPending_domains (s : State) : (clearPending s).domains = s.domains := rfl
@[simp] theorem clearPending_pool (s : State) : (clearPending s).pool = s.pool := rfl
@[simp] theorem clearPending_freeQueue (s : State) : (clearPending s).freeQueue = s.freeQueue := rfl
@[simp] theorem clearPending_slotIndex (s : State) : (clearPending s).slotIndex = s.slotIndex := rfl
@[simp] theorem clearPending_retireQueue (s : State) : (clearPending s).retireQueue = s.retireQueue := rfl
@[simp] theorem clearPending_copy (s : State) : (clearPending s).copy = s.copy := rfl
@[simp] theorem clearPending_commit (s : State) : (clearPending s).commit = s.commit := rfl
@[simp] theorem clearPending_retireBack (s : State) : (clearPending s).retireBack = s.retireBack := rfl
@[simp] theorem clearPending_install (s : State) : (clearPending s).install = s.install := rfl
@[simp] theorem clearPending_port (s : State) : (clearPending s).port = s.port := rfl
@[simp] theorem clearPending_memPort (s : State) : (clearPending s).memPort = s.memPort := rfl
@[simp] theorem clearPending_events (s : State) : (clearPending s).events = s.events := rfl
@[simp] theorem clearPending_mask (s : State) : (clearPending s).mask = s.mask := rfl
@[simp] theorem clearPending_staging (s : State) : (clearPending s).staging = s.staging := rfl
@[simp] theorem clearPending_memory (s : State) : (clearPending s).memory = s.memory := rfl
@[simp] theorem clearPending_arrivals (s : State) : (clearPending s).arrivals = s.arrivals := rfl
@[simp] theorem clearPending_pending (s : State) : (clearPending s).pending = s.pending := rfl

/-! ### closePort changes `port` only -/

@[simp] theorem closePort_powered (s : State) : (closePort s).powered = s.powered := rfl
@[simp] theorem closePort_pfwAsserted (s : State) : (closePort s).pfwAsserted = s.pfwAsserted := rfl
@[simp] theorem closePort_resetAsserted (s : State) : (closePort s).resetAsserted = s.resetAsserted := rfl
@[simp] theorem closePort_resetTaken (s : State) : (closePort s).resetTaken = s.resetTaken := rfl
@[simp] theorem closePort_straps (s : State) : (closePort s).straps = s.straps := rfl
@[simp] theorem closePort_loc (s : State) : (closePort s).loc = s.loc := rfl
@[simp] theorem closePort_mt (s : State) : (closePort s).mt = s.mt := rfl
@[simp] theorem closePort_mode (s : State) : (closePort s).mode = s.mode := rfl
@[simp] theorem closePort_recovery (s : State) : (closePort s).recovery = s.recovery := rfl
@[simp] theorem closePort_layout (s : State) : (closePort s).layout = s.layout := rfl
@[simp] theorem closePort_activeCopy (s : State) : (closePort s).activeCopy = s.activeCopy := rfl
@[simp] theorem closePort_activeSequence (s : State) : (closePort s).activeSequence = s.activeSequence := rfl
@[simp] theorem closePort_geometry (s : State) : (closePort s).geometry = s.geometry := rfl
@[simp] theorem closePort_domains (s : State) : (closePort s).domains = s.domains := rfl
@[simp] theorem closePort_pool (s : State) : (closePort s).pool = s.pool := rfl
@[simp] theorem closePort_freeQueue (s : State) : (closePort s).freeQueue = s.freeQueue := rfl
@[simp] theorem closePort_slotIndex (s : State) : (closePort s).slotIndex = s.slotIndex := rfl
@[simp] theorem closePort_retireQueue (s : State) : (closePort s).retireQueue = s.retireQueue := rfl
@[simp] theorem closePort_copy (s : State) : (closePort s).copy = s.copy := rfl
@[simp] theorem closePort_commit (s : State) : (closePort s).commit = s.commit := rfl
@[simp] theorem closePort_retireBack (s : State) : (closePort s).retireBack = s.retireBack := rfl
@[simp] theorem closePort_install (s : State) : (closePort s).install = s.install := rfl
@[simp] theorem closePort_memPort (s : State) : (closePort s).memPort = s.memPort := rfl
@[simp] theorem closePort_events (s : State) : (closePort s).events = s.events := rfl
@[simp] theorem closePort_mask (s : State) : (closePort s).mask = s.mask := rfl
@[simp] theorem closePort_link (s : State) : (closePort s).link = s.link := rfl
@[simp] theorem closePort_staging (s : State) : (closePort s).staging = s.staging := rfl
@[simp] theorem closePort_memory (s : State) : (closePort s).memory = s.memory := rfl
@[simp] theorem closePort_arrivals (s : State) : (closePort s).arrivals = s.arrivals := rfl
@[simp] theorem closePort_pending (s : State) : (closePort s).pending = s.pending := rfl

/-! ### setStage changes `port` only -/

@[simp] theorem setStage_powered (s : State) (g : WriteStage) : (setStage g s).powered = s.powered := rfl
@[simp] theorem setStage_pfwAsserted (s : State) (g : WriteStage) : (setStage g s).pfwAsserted = s.pfwAsserted := rfl
@[simp] theorem setStage_resetAsserted (s : State) (g : WriteStage) : (setStage g s).resetAsserted = s.resetAsserted := rfl
@[simp] theorem setStage_resetTaken (s : State) (g : WriteStage) : (setStage g s).resetTaken = s.resetTaken := rfl
@[simp] theorem setStage_straps (s : State) (g : WriteStage) : (setStage g s).straps = s.straps := rfl
@[simp] theorem setStage_loc (s : State) (g : WriteStage) : (setStage g s).loc = s.loc := rfl
@[simp] theorem setStage_mt (s : State) (g : WriteStage) : (setStage g s).mt = s.mt := rfl
@[simp] theorem setStage_mode (s : State) (g : WriteStage) : (setStage g s).mode = s.mode := rfl
@[simp] theorem setStage_recovery (s : State) (g : WriteStage) : (setStage g s).recovery = s.recovery := rfl
@[simp] theorem setStage_layout (s : State) (g : WriteStage) : (setStage g s).layout = s.layout := rfl
@[simp] theorem setStage_activeCopy (s : State) (g : WriteStage) : (setStage g s).activeCopy = s.activeCopy := rfl
@[simp] theorem setStage_activeSequence (s : State) (g : WriteStage) : (setStage g s).activeSequence = s.activeSequence := rfl
@[simp] theorem setStage_geometry (s : State) (g : WriteStage) : (setStage g s).geometry = s.geometry := rfl
@[simp] theorem setStage_domains (s : State) (g : WriteStage) : (setStage g s).domains = s.domains := rfl
@[simp] theorem setStage_pool (s : State) (g : WriteStage) : (setStage g s).pool = s.pool := rfl
@[simp] theorem setStage_freeQueue (s : State) (g : WriteStage) : (setStage g s).freeQueue = s.freeQueue := rfl
@[simp] theorem setStage_slotIndex (s : State) (g : WriteStage) : (setStage g s).slotIndex = s.slotIndex := rfl
@[simp] theorem setStage_retireQueue (s : State) (g : WriteStage) : (setStage g s).retireQueue = s.retireQueue := rfl
@[simp] theorem setStage_copy (s : State) (g : WriteStage) : (setStage g s).copy = s.copy := rfl
@[simp] theorem setStage_commit (s : State) (g : WriteStage) : (setStage g s).commit = s.commit := rfl
@[simp] theorem setStage_retireBack (s : State) (g : WriteStage) : (setStage g s).retireBack = s.retireBack := rfl
@[simp] theorem setStage_install (s : State) (g : WriteStage) : (setStage g s).install = s.install := rfl
@[simp] theorem setStage_memPort (s : State) (g : WriteStage) : (setStage g s).memPort = s.memPort := rfl
@[simp] theorem setStage_events (s : State) (g : WriteStage) : (setStage g s).events = s.events := rfl
@[simp] theorem setStage_mask (s : State) (g : WriteStage) : (setStage g s).mask = s.mask := rfl
@[simp] theorem setStage_link (s : State) (g : WriteStage) : (setStage g s).link = s.link := rfl
@[simp] theorem setStage_staging (s : State) (g : WriteStage) : (setStage g s).staging = s.staging := rfl
@[simp] theorem setStage_memory (s : State) (g : WriteStage) : (setStage g s).memory = s.memory := rfl
@[simp] theorem setStage_arrivals (s : State) (g : WriteStage) : (setStage g s).arrivals = s.arrivals := rfl
@[simp] theorem setStage_pending (s : State) (g : WriteStage) : (setStage g s).pending = s.pending := rfl

/-! ### setDisp changes `port` only -/

@[simp] theorem setDisp_powered (s : State) (d : Disposition) : (setDisp d s).powered = s.powered := rfl
@[simp] theorem setDisp_pfwAsserted (s : State) (d : Disposition) : (setDisp d s).pfwAsserted = s.pfwAsserted := rfl
@[simp] theorem setDisp_resetAsserted (s : State) (d : Disposition) : (setDisp d s).resetAsserted = s.resetAsserted := rfl
@[simp] theorem setDisp_resetTaken (s : State) (d : Disposition) : (setDisp d s).resetTaken = s.resetTaken := rfl
@[simp] theorem setDisp_straps (s : State) (d : Disposition) : (setDisp d s).straps = s.straps := rfl
@[simp] theorem setDisp_loc (s : State) (d : Disposition) : (setDisp d s).loc = s.loc := rfl
@[simp] theorem setDisp_mt (s : State) (d : Disposition) : (setDisp d s).mt = s.mt := rfl
@[simp] theorem setDisp_mode (s : State) (d : Disposition) : (setDisp d s).mode = s.mode := rfl
@[simp] theorem setDisp_recovery (s : State) (d : Disposition) : (setDisp d s).recovery = s.recovery := rfl
@[simp] theorem setDisp_layout (s : State) (d : Disposition) : (setDisp d s).layout = s.layout := rfl
@[simp] theorem setDisp_activeCopy (s : State) (d : Disposition) : (setDisp d s).activeCopy = s.activeCopy := rfl
@[simp] theorem setDisp_activeSequence (s : State) (d : Disposition) : (setDisp d s).activeSequence = s.activeSequence := rfl
@[simp] theorem setDisp_geometry (s : State) (d : Disposition) : (setDisp d s).geometry = s.geometry := rfl
@[simp] theorem setDisp_domains (s : State) (d : Disposition) : (setDisp d s).domains = s.domains := rfl
@[simp] theorem setDisp_pool (s : State) (d : Disposition) : (setDisp d s).pool = s.pool := rfl
@[simp] theorem setDisp_freeQueue (s : State) (d : Disposition) : (setDisp d s).freeQueue = s.freeQueue := rfl
@[simp] theorem setDisp_slotIndex (s : State) (d : Disposition) : (setDisp d s).slotIndex = s.slotIndex := rfl
@[simp] theorem setDisp_retireQueue (s : State) (d : Disposition) : (setDisp d s).retireQueue = s.retireQueue := rfl
@[simp] theorem setDisp_copy (s : State) (d : Disposition) : (setDisp d s).copy = s.copy := rfl
@[simp] theorem setDisp_commit (s : State) (d : Disposition) : (setDisp d s).commit = s.commit := rfl
@[simp] theorem setDisp_retireBack (s : State) (d : Disposition) : (setDisp d s).retireBack = s.retireBack := rfl
@[simp] theorem setDisp_install (s : State) (d : Disposition) : (setDisp d s).install = s.install := rfl
@[simp] theorem setDisp_memPort (s : State) (d : Disposition) : (setDisp d s).memPort = s.memPort := rfl
@[simp] theorem setDisp_events (s : State) (d : Disposition) : (setDisp d s).events = s.events := rfl
@[simp] theorem setDisp_mask (s : State) (d : Disposition) : (setDisp d s).mask = s.mask := rfl
@[simp] theorem setDisp_link (s : State) (d : Disposition) : (setDisp d s).link = s.link := rfl
@[simp] theorem setDisp_staging (s : State) (d : Disposition) : (setDisp d s).staging = s.staging := rfl
@[simp] theorem setDisp_memory (s : State) (d : Disposition) : (setDisp d s).memory = s.memory := rfl
@[simp] theorem setDisp_arrivals (s : State) (d : Disposition) : (setDisp d s).arrivals = s.arrivals := rfl
@[simp] theorem setDisp_pending (s : State) (d : Disposition) : (setDisp d s).pending = s.pending := rfl

/-! ### setWaiting changes `port` only -/

@[simp] theorem setWaiting_powered (s : State) (c : Option BusCycle) : (setWaiting c s).powered = s.powered := rfl
@[simp] theorem setWaiting_pfwAsserted (s : State) (c : Option BusCycle) : (setWaiting c s).pfwAsserted = s.pfwAsserted := rfl
@[simp] theorem setWaiting_resetAsserted (s : State) (c : Option BusCycle) : (setWaiting c s).resetAsserted = s.resetAsserted := rfl
@[simp] theorem setWaiting_resetTaken (s : State) (c : Option BusCycle) : (setWaiting c s).resetTaken = s.resetTaken := rfl
@[simp] theorem setWaiting_straps (s : State) (c : Option BusCycle) : (setWaiting c s).straps = s.straps := rfl
@[simp] theorem setWaiting_loc (s : State) (c : Option BusCycle) : (setWaiting c s).loc = s.loc := rfl
@[simp] theorem setWaiting_mt (s : State) (c : Option BusCycle) : (setWaiting c s).mt = s.mt := rfl
@[simp] theorem setWaiting_mode (s : State) (c : Option BusCycle) : (setWaiting c s).mode = s.mode := rfl
@[simp] theorem setWaiting_recovery (s : State) (c : Option BusCycle) : (setWaiting c s).recovery = s.recovery := rfl
@[simp] theorem setWaiting_layout (s : State) (c : Option BusCycle) : (setWaiting c s).layout = s.layout := rfl
@[simp] theorem setWaiting_activeCopy (s : State) (c : Option BusCycle) : (setWaiting c s).activeCopy = s.activeCopy := rfl
@[simp] theorem setWaiting_activeSequence (s : State) (c : Option BusCycle) : (setWaiting c s).activeSequence = s.activeSequence := rfl
@[simp] theorem setWaiting_geometry (s : State) (c : Option BusCycle) : (setWaiting c s).geometry = s.geometry := rfl
@[simp] theorem setWaiting_domains (s : State) (c : Option BusCycle) : (setWaiting c s).domains = s.domains := rfl
@[simp] theorem setWaiting_pool (s : State) (c : Option BusCycle) : (setWaiting c s).pool = s.pool := rfl
@[simp] theorem setWaiting_freeQueue (s : State) (c : Option BusCycle) : (setWaiting c s).freeQueue = s.freeQueue := rfl
@[simp] theorem setWaiting_slotIndex (s : State) (c : Option BusCycle) : (setWaiting c s).slotIndex = s.slotIndex := rfl
@[simp] theorem setWaiting_retireQueue (s : State) (c : Option BusCycle) : (setWaiting c s).retireQueue = s.retireQueue := rfl
@[simp] theorem setWaiting_copy (s : State) (c : Option BusCycle) : (setWaiting c s).copy = s.copy := rfl
@[simp] theorem setWaiting_commit (s : State) (c : Option BusCycle) : (setWaiting c s).commit = s.commit := rfl
@[simp] theorem setWaiting_retireBack (s : State) (c : Option BusCycle) : (setWaiting c s).retireBack = s.retireBack := rfl
@[simp] theorem setWaiting_install (s : State) (c : Option BusCycle) : (setWaiting c s).install = s.install := rfl
@[simp] theorem setWaiting_memPort (s : State) (c : Option BusCycle) : (setWaiting c s).memPort = s.memPort := rfl
@[simp] theorem setWaiting_events (s : State) (c : Option BusCycle) : (setWaiting c s).events = s.events := rfl
@[simp] theorem setWaiting_mask (s : State) (c : Option BusCycle) : (setWaiting c s).mask = s.mask := rfl
@[simp] theorem setWaiting_link (s : State) (c : Option BusCycle) : (setWaiting c s).link = s.link := rfl
@[simp] theorem setWaiting_staging (s : State) (c : Option BusCycle) : (setWaiting c s).staging = s.staging := rfl
@[simp] theorem setWaiting_memory (s : State) (c : Option BusCycle) : (setWaiting c s).memory = s.memory := rfl
@[simp] theorem setWaiting_arrivals (s : State) (c : Option BusCycle) : (setWaiting c s).arrivals = s.arrivals := rfl
@[simp] theorem setWaiting_pending (s : State) (c : Option BusCycle) : (setWaiting c s).pending = s.pending := rfl

/-! ### vacate changes `port` only -/

@[simp] theorem vacate_powered (s : State) : (vacate s).powered = s.powered := rfl
@[simp] theorem vacate_pfwAsserted (s : State) : (vacate s).pfwAsserted = s.pfwAsserted := rfl
@[simp] theorem vacate_resetAsserted (s : State) : (vacate s).resetAsserted = s.resetAsserted := rfl
@[simp] theorem vacate_resetTaken (s : State) : (vacate s).resetTaken = s.resetTaken := rfl
@[simp] theorem vacate_straps (s : State) : (vacate s).straps = s.straps := rfl
@[simp] theorem vacate_loc (s : State) : (vacate s).loc = s.loc := rfl
@[simp] theorem vacate_mt (s : State) : (vacate s).mt = s.mt := rfl
@[simp] theorem vacate_mode (s : State) : (vacate s).mode = s.mode := rfl
@[simp] theorem vacate_recovery (s : State) : (vacate s).recovery = s.recovery := rfl
@[simp] theorem vacate_layout (s : State) : (vacate s).layout = s.layout := rfl
@[simp] theorem vacate_activeCopy (s : State) : (vacate s).activeCopy = s.activeCopy := rfl
@[simp] theorem vacate_activeSequence (s : State) : (vacate s).activeSequence = s.activeSequence := rfl
@[simp] theorem vacate_geometry (s : State) : (vacate s).geometry = s.geometry := rfl
@[simp] theorem vacate_domains (s : State) : (vacate s).domains = s.domains := rfl
@[simp] theorem vacate_pool (s : State) : (vacate s).pool = s.pool := rfl
@[simp] theorem vacate_freeQueue (s : State) : (vacate s).freeQueue = s.freeQueue := rfl
@[simp] theorem vacate_slotIndex (s : State) : (vacate s).slotIndex = s.slotIndex := rfl
@[simp] theorem vacate_retireQueue (s : State) : (vacate s).retireQueue = s.retireQueue := rfl
@[simp] theorem vacate_copy (s : State) : (vacate s).copy = s.copy := rfl
@[simp] theorem vacate_commit (s : State) : (vacate s).commit = s.commit := rfl
@[simp] theorem vacate_retireBack (s : State) : (vacate s).retireBack = s.retireBack := rfl
@[simp] theorem vacate_install (s : State) : (vacate s).install = s.install := rfl
@[simp] theorem vacate_memPort (s : State) : (vacate s).memPort = s.memPort := rfl
@[simp] theorem vacate_events (s : State) : (vacate s).events = s.events := rfl
@[simp] theorem vacate_mask (s : State) : (vacate s).mask = s.mask := rfl
@[simp] theorem vacate_link (s : State) : (vacate s).link = s.link := rfl
@[simp] theorem vacate_staging (s : State) : (vacate s).staging = s.staging := rfl
@[simp] theorem vacate_memory (s : State) : (vacate s).memory = s.memory := rfl
@[simp] theorem vacate_arrivals (s : State) : (vacate s).arrivals = s.arrivals := rfl
@[simp] theorem vacate_pending (s : State) : (vacate s).pending = s.pending := rfl

/-! ### setBoost changes `memPort` only -/

@[simp] theorem setBoost_powered (s : State) (b : Bool) : (setBoost b s).powered = s.powered := rfl
@[simp] theorem setBoost_pfwAsserted (s : State) (b : Bool) : (setBoost b s).pfwAsserted = s.pfwAsserted := rfl
@[simp] theorem setBoost_resetAsserted (s : State) (b : Bool) : (setBoost b s).resetAsserted = s.resetAsserted := rfl
@[simp] theorem setBoost_resetTaken (s : State) (b : Bool) : (setBoost b s).resetTaken = s.resetTaken := rfl
@[simp] theorem setBoost_straps (s : State) (b : Bool) : (setBoost b s).straps = s.straps := rfl
@[simp] theorem setBoost_loc (s : State) (b : Bool) : (setBoost b s).loc = s.loc := rfl
@[simp] theorem setBoost_mt (s : State) (b : Bool) : (setBoost b s).mt = s.mt := rfl
@[simp] theorem setBoost_mode (s : State) (b : Bool) : (setBoost b s).mode = s.mode := rfl
@[simp] theorem setBoost_recovery (s : State) (b : Bool) : (setBoost b s).recovery = s.recovery := rfl
@[simp] theorem setBoost_layout (s : State) (b : Bool) : (setBoost b s).layout = s.layout := rfl
@[simp] theorem setBoost_activeCopy (s : State) (b : Bool) : (setBoost b s).activeCopy = s.activeCopy := rfl
@[simp] theorem setBoost_activeSequence (s : State) (b : Bool) : (setBoost b s).activeSequence = s.activeSequence := rfl
@[simp] theorem setBoost_geometry (s : State) (b : Bool) : (setBoost b s).geometry = s.geometry := rfl
@[simp] theorem setBoost_domains (s : State) (b : Bool) : (setBoost b s).domains = s.domains := rfl
@[simp] theorem setBoost_pool (s : State) (b : Bool) : (setBoost b s).pool = s.pool := rfl
@[simp] theorem setBoost_freeQueue (s : State) (b : Bool) : (setBoost b s).freeQueue = s.freeQueue := rfl
@[simp] theorem setBoost_slotIndex (s : State) (b : Bool) : (setBoost b s).slotIndex = s.slotIndex := rfl
@[simp] theorem setBoost_retireQueue (s : State) (b : Bool) : (setBoost b s).retireQueue = s.retireQueue := rfl
@[simp] theorem setBoost_copy (s : State) (b : Bool) : (setBoost b s).copy = s.copy := rfl
@[simp] theorem setBoost_commit (s : State) (b : Bool) : (setBoost b s).commit = s.commit := rfl
@[simp] theorem setBoost_retireBack (s : State) (b : Bool) : (setBoost b s).retireBack = s.retireBack := rfl
@[simp] theorem setBoost_install (s : State) (b : Bool) : (setBoost b s).install = s.install := rfl
@[simp] theorem setBoost_port (s : State) (b : Bool) : (setBoost b s).port = s.port := rfl
@[simp] theorem setBoost_events (s : State) (b : Bool) : (setBoost b s).events = s.events := rfl
@[simp] theorem setBoost_mask (s : State) (b : Bool) : (setBoost b s).mask = s.mask := rfl
@[simp] theorem setBoost_link (s : State) (b : Bool) : (setBoost b s).link = s.link := rfl
@[simp] theorem setBoost_staging (s : State) (b : Bool) : (setBoost b s).staging = s.staging := rfl
@[simp] theorem setBoost_memory (s : State) (b : Bool) : (setBoost b s).memory = s.memory := rfl
@[simp] theorem setBoost_arrivals (s : State) (b : Bool) : (setBoost b s).arrivals = s.arrivals := rfl
@[simp] theorem setBoost_pending (s : State) (b : Bool) : (setBoost b s).pending = s.pending := rfl

/-! ### What the updates put in their own field -/

@[simp] theorem State.setDom_domains (s : State) (d : Fin 4) (r : Runtime) : (s.setDom d r).domains = s.domains.set d r := rfl
@[simp] theorem State.setSlot_pool (s : State) (i : Nat) (e : PoolEntry) : (s.setSlot i e).pool = s.pool.set i e := rfl
@[simp] theorem State.setRecovery_recovery (s : State) (r : Recovery) : (s.setRecovery r).recovery = r := rfl
@[simp] theorem State.setInstall_install (s : State) (st : InstallStream) : (s.setInstall st).install = some st := rfl
@[simp] theorem setStage_port (s : State) (g : WriteStage) : (setStage g s).port = { s.port with stage := g } := rfl
@[simp] theorem setDisp_port (s : State) (d : Disposition) : (setDisp d s).port = { s.port with disp := some d } := rfl
@[simp] theorem setWaiting_port (s : State) (c : Option BusCycle) : (setWaiting c s).port = { s.port with waiting := c } := rfl
@[simp] theorem setBoost_memPort (s : State) (b : Bool) : (setBoost b s).memPort = { s.memPort with boost := b } := rfl
@[simp] theorem closePort_state (s : State) :
    (closePort s).port.state = if s.port.early then .vacant else .closing := rfl
@[simp] theorem closePort_cycle (s : State) : (closePort s).port.cycle = s.port.cycle := rfl
@[simp] theorem closePort_cls (s : State) : (closePort s).port.cls = s.port.cls := rfl
@[simp] theorem closePort_disp (s : State) : (closePort s).port.disp = s.port.disp := rfl
@[simp] theorem closePort_stage (s : State) : (closePort s).port.stage = .none := rfl
@[simp] theorem closePort_early (s : State) : (closePort s).port.early = false := rfl
@[simp] theorem closePort_waiting (s : State) : (closePort s).port.waiting = s.port.waiting := rfl
@[simp] theorem post_result (s : State) (tag code : Byte) (r : ResultCode) (data : List Byte) :
    (post tag code r data s).link.result = { tag := tag, code := code, result := r, data := data } := rfl

/-- A domain's record is the one just set, and the other domains keep theirs. -/
@[simp] theorem State.dom_setDom (s : State) (d e : Fin 4) (r : Runtime) :
    (s.setDom d r).dom e = if d = e then r else s.dom e := by
  simp only [State.dom, State.setDom_domains, Fin.getElem_fin, Vector.getElem_set, Fin.ext_iff]

/-- Setting a slot leaves every other slot's entry. -/
theorem State.slot_setSlot_other (s : State) (i j : Nat) (e : PoolEntry) (h : i ≠ j) :
    (s.setSlot i e).slot j = s.slot j := by
  simp [State.slot, List.getD_eq_getElem?_getD, h]

/-- A slot of the pool holds the entry just set. -/
theorem State.slot_setSlot_same (s : State) (i : Nat) (e : PoolEntry) (h : i < s.pool.length) :
    (s.setSlot i e).slot i = e := by
  simp [State.slot, List.getD_eq_getElem?_getD, h]

/-! ### Recording an event changes `events` only -/

@[simp] theorem record_powered (e : Event) (s : State) : (record e s).powered = s.powered := by unfold record; split <;> rfl
@[simp] theorem record_pfwAsserted (e : Event) (s : State) : (record e s).pfwAsserted = s.pfwAsserted := by unfold record; split <;> rfl
@[simp] theorem record_resetAsserted (e : Event) (s : State) : (record e s).resetAsserted = s.resetAsserted := by unfold record; split <;> rfl
@[simp] theorem record_resetTaken (e : Event) (s : State) : (record e s).resetTaken = s.resetTaken := by unfold record; split <;> rfl
@[simp] theorem record_straps (e : Event) (s : State) : (record e s).straps = s.straps := by unfold record; split <;> rfl
@[simp] theorem record_loc (e : Event) (s : State) : (record e s).loc = s.loc := by unfold record; split <;> rfl
@[simp] theorem record_mt (e : Event) (s : State) : (record e s).mt = s.mt := by unfold record; split <;> rfl
@[simp] theorem record_mode (e : Event) (s : State) : (record e s).mode = s.mode := by unfold record; split <;> rfl
@[simp] theorem record_recovery (e : Event) (s : State) : (record e s).recovery = s.recovery := by unfold record; split <;> rfl
@[simp] theorem record_layout (e : Event) (s : State) : (record e s).layout = s.layout := by unfold record; split <;> rfl
@[simp] theorem record_activeCopy (e : Event) (s : State) : (record e s).activeCopy = s.activeCopy := by unfold record; split <;> rfl
@[simp] theorem record_activeSequence (e : Event) (s : State) : (record e s).activeSequence = s.activeSequence := by unfold record; split <;> rfl
@[simp] theorem record_geometry (e : Event) (s : State) : (record e s).geometry = s.geometry := by unfold record; split <;> rfl
@[simp] theorem record_domains (e : Event) (s : State) : (record e s).domains = s.domains := by unfold record; split <;> rfl
@[simp] theorem record_pool (e : Event) (s : State) : (record e s).pool = s.pool := by unfold record; split <;> rfl
@[simp] theorem record_freeQueue (e : Event) (s : State) : (record e s).freeQueue = s.freeQueue := by unfold record; split <;> rfl
@[simp] theorem record_slotIndex (e : Event) (s : State) : (record e s).slotIndex = s.slotIndex := by unfold record; split <;> rfl
@[simp] theorem record_retireQueue (e : Event) (s : State) : (record e s).retireQueue = s.retireQueue := by unfold record; split <;> rfl
@[simp] theorem record_copy (e : Event) (s : State) : (record e s).copy = s.copy := by unfold record; split <;> rfl
@[simp] theorem record_commit (e : Event) (s : State) : (record e s).commit = s.commit := by unfold record; split <;> rfl
@[simp] theorem record_retireBack (e : Event) (s : State) : (record e s).retireBack = s.retireBack := by unfold record; split <;> rfl
@[simp] theorem record_install (e : Event) (s : State) : (record e s).install = s.install := by unfold record; split <;> rfl
@[simp] theorem record_port (e : Event) (s : State) : (record e s).port = s.port := by unfold record; split <;> rfl
@[simp] theorem record_memPort (e : Event) (s : State) : (record e s).memPort = s.memPort := by unfold record; split <;> rfl
@[simp] theorem record_mask (e : Event) (s : State) : (record e s).mask = s.mask := by unfold record; split <;> rfl
@[simp] theorem record_link (e : Event) (s : State) : (record e s).link = s.link := by unfold record; split <;> rfl
@[simp] theorem record_staging (e : Event) (s : State) : (record e s).staging = s.staging := by unfold record; split <;> rfl
@[simp] theorem record_memory (e : Event) (s : State) : (record e s).memory = s.memory := by unfold record; split <;> rfl
@[simp] theorem record_arrivals (e : Event) (s : State) : (record e s).arrivals = s.arrivals := by unfold record; split <;> rfl
@[simp] theorem record_pending (e : Event) (s : State) : (record e s).pending = s.pending := by unfold record; split <;> rfl

/-- What recording does to the queue: the mask decides, then the queue takes the event (R170). -/
theorem record_events (e : Event) (s : State) :
    (record e s).events = if s.mask.getLsbD e.maskBit then queued s.events e else s.events := by
  unfold record; split <;> rfl

end Sys2Proof.Machine
end

