-- ==== Sys2Proof/Laws/Update.lean ====
section
/-! SUPPORT. Frames of the Update Controller's and the Log Engine's operations, and what the shared operations of an abort do. -/

namespace Sys2Proof.Machine

/-- What no operation of the Update Controller, of a runtime stream or of the Host Port's decision touches. -/
structure WorkFrame (s t : State) : Prop where
  powered : t.powered = s.powered
  pfwAsserted : t.pfwAsserted = s.pfwAsserted
  resetAsserted : t.resetAsserted = s.resetAsserted
  resetTaken : t.resetTaken = s.resetTaken
  straps : t.straps = s.straps
  loc : t.loc = s.loc
  mt : t.mt = s.mt
  mode : t.mode = s.mode
  recovery : t.recovery = s.recovery
  layout : t.layout = s.layout
  activeCopy : t.activeCopy = s.activeCopy
  activeSequence : t.activeSequence = s.activeSequence
  geometry : t.geometry = s.geometry
  install : t.install = s.install
  mask : t.mask = s.mask
  link : t.link = s.link
  staging : t.staging = s.staging
  memory : t.memory = s.memory
  arrivals : t.arrivals = s.arrivals
  pending : t.pending = s.pending
  access : t.memPort.access = s.memPort.access
  stopped : t.memPort.stopped = s.memPort.stopped
  pointer : t.memPort.pointer = s.memPort.pointer
  eventsFit : s.events.length ≤ 16 → t.events.length ≤ 16
  noWaiting : s.port.waiting = none → t.port.waiting = none

theorem WorkFrame.refl (s : State) : WorkFrame s s := ⟨rfl, rfl, rfl, rfl, rfl, rfl, rfl, rfl, rfl, rfl, rfl, rfl, rfl, rfl, rfl, rfl, rfl, rfl, rfl, rfl, rfl, rfl, rfl, fun h => h, fun h => h⟩

theorem WorkFrame.trans (s t u : State) (h1 : WorkFrame s t) (h2 : WorkFrame t u) : WorkFrame s u :=
  ⟨h2.powered.trans h1.powered, h2.pfwAsserted.trans h1.pfwAsserted, h2.resetAsserted.trans h1.resetAsserted, h2.resetTaken.trans h1.resetTaken, h2.straps.trans h1.straps, h2.loc.trans h1.loc, h2.mt.trans h1.mt, h2.mode.trans h1.mode, h2.recovery.trans h1.recovery, h2.layout.trans h1.layout, h2.activeCopy.trans h1.activeCopy, h2.activeSequence.trans h1.activeSequence, h2.geometry.trans h1.geometry, h2.install.trans h1.install, h2.mask.trans h1.mask, h2.link.trans h1.link, h2.staging.trans h1.staging, h2.memory.trans h1.memory, h2.arrivals.trans h1.arrivals, h2.pending.trans h1.pending, h2.access.trans h1.access, h2.stopped.trans h1.stopped, h2.pointer.trans h1.pointer, fun h => h2.eventsFit (h1.eventsFit h),
   fun h => h2.noWaiting (h1.noWaiting h)⟩

theorem State.setDom_frame (s : State) (d : Fin 4) (r : Runtime) : WorkFrame s (s.setDom d r) := ⟨rfl, rfl, rfl, rfl, rfl, rfl, rfl, rfl, rfl, rfl, rfl, rfl, rfl, rfl, rfl, rfl, rfl, rfl, rfl, rfl, rfl, rfl, rfl, fun h => h, fun h => h⟩
theorem State.setSlot_frame (s : State) (i : Nat) (e : PoolEntry) : WorkFrame s (s.setSlot i e) := ⟨rfl, rfl, rfl, rfl, rfl, rfl, rfl, rfl, rfl, rfl, rfl, rfl, rfl, rfl, rfl, rfl, rfl, rfl, rfl, rfl, rfl, rfl, rfl, fun h => h, fun h => h⟩
theorem State.setSlotState_frame (s : State) (i : Nat) (st : SlotState) : WorkFrame s (s.setSlotState i st) := ⟨rfl, rfl, rfl, rfl, rfl, rfl, rfl, rfl, rfl, rfl, rfl, rfl, rfl, rfl, rfl, rfl, rfl, rfl, rfl, rfl, rfl, rfl, rfl, fun h => h, fun h => h⟩
theorem State.unindex_frame (s : State) (i : Nat) : WorkFrame s (s.unindex i) := ⟨rfl, rfl, rfl, rfl, rfl, rfl, rfl, rfl, rfl, rfl, rfl, rfl, rfl, rfl, rfl, rfl, rfl, rfl, rfl, rfl, rfl, rfl, rfl, fun h => h, fun h => h⟩
theorem closePort_frame (s : State) : WorkFrame s (closePort s) := ⟨rfl, rfl, rfl, rfl, rfl, rfl, rfl, rfl, rfl, rfl, rfl, rfl, rfl, rfl, rfl, rfl, rfl, rfl, rfl, rfl, rfl, rfl, rfl, fun h => h, fun h => h⟩
theorem setStage_frame (s : State) (g : WriteStage) : WorkFrame s (setStage g s) := ⟨rfl, rfl, rfl, rfl, rfl, rfl, rfl, rfl, rfl, rfl, rfl, rfl, rfl, rfl, rfl, rfl, rfl, rfl, rfl, rfl, rfl, rfl, rfl, fun h => h, fun h => h⟩
theorem setDisp_frame (s : State) (d : Disposition) : WorkFrame s (setDisp d s) := ⟨rfl, rfl, rfl, rfl, rfl, rfl, rfl, rfl, rfl, rfl, rfl, rfl, rfl, rfl, rfl, rfl, rfl, rfl, rfl, rfl, rfl, rfl, rfl, fun h => h, fun h => h⟩
theorem setBoost_frame (s : State) (b : Bool) : WorkFrame s (setBoost b s) := ⟨rfl, rfl, rfl, rfl, rfl, rfl, rfl, rfl, rfl, rfl, rfl, rfl, rfl, rfl, rfl, rfl, rfl, rfl, rfl, rfl, rfl, rfl, rfl, fun h => h, fun h => h⟩
theorem passAccess_frame (s : State) (d : Disposition) : WorkFrame s (passAccess d s) := ⟨rfl, rfl, rfl, rfl, rfl, rfl, rfl, rfl, rfl, rfl, rfl, rfl, rfl, rfl, rfl, rfl, rfl, rfl, rfl, rfl, rfl, rfl, rfl, fun h => h, fun h => h⟩

/-- A posting keeps the queue at 16 records (R176). -/
theorem queued_length (q : List EventRec) (e : Event) (h : q.length ≤ 16) : (queued q e).length ≤ 16 := by
  unfold queued
  split
  · simp
  · next hl =>
    have hq : q ≠ [] := by intro hq; simp [hq] at hl
    have hp : 0 < q.length := List.length_pos_of_ne_nil hq
    split
    · simp; omega
    · split
      · simp; omega
      · simp; omega

theorem record_frame (s : State) (e : Event) : WorkFrame s (record e s) := by
  unfold record
  split
  · exact ⟨rfl, rfl, rfl, rfl, rfl, rfl, rfl, rfl, rfl, rfl, rfl, rfl, rfl, rfl, rfl, rfl, rfl, rfl, rfl, rfl, rfl, rfl, rfl, fun h => queued_length _ _ h, fun h => h⟩
  · exact WorkFrame.refl s

theorem reportWrite_frame (s : State) (r : Reason) : WorkFrame s (reportWrite r s) := record_frame s _

theorem moveSlots_frame (old new : SlotState) (l : List Nat) : ∀ s : State, WorkFrame s (moveSlots old new l s) := by
  induction l with
  | nil => exact WorkFrame.refl
  | cons i rest ih =>
    intro s
    unfold moveSlots
    refine WorkFrame.trans _ _ _ ?_ (ih _)
    split
    · exact s.setSlotState_frame _ _
    · exact WorkFrame.refl s

/-- Moving slots changes the pool only. -/
theorem moveSlots_only_pool (old new : SlotState) (l : List Nat) : ∀ s : State,
    moveSlots old new l s = { s with pool := (moveSlots old new l s).pool } := by
  induction l with
  | nil => intro s; rfl
  | cons i rest ih =>
    intro s
    unfold moveSlots
    split
    · rw [ih]; rfl
    · exact ih s

/-- Moving slots from one state to another: each listed slot in the old state goes to the new one, its other fields kept;
every other slot stays as it was. -/
theorem moveSlots_slot (old new : SlotState) (hn : old ≠ new) (l : List Nat) : ∀ (s : State) (j : Nat),
    (∀ i ∈ l, i < s.pool.length) →
    (moveSlots old new l s).slot j =
      if j ∈ l ∧ (s.slot j).state = old then { s.slot j with state := new } else s.slot j := by
  induction l with
  | nil => intro s j _; simp [moveSlots]
  | cons i rest ih =>
    intro s j hl
    have hi : i < s.pool.length := hl i (by simp)
    have hr : ∀ x ∈ rest, x < s.pool.length := fun x hx => hl x (by simp [hx])
    unfold moveSlots
    split
    · next hs =>
      rw [ih _ j (by simpa [State.setSlotState, State.setSlot] using hr)]
      by_cases hj : i = j
      · subst hj
        have : (s.setSlotState i new).slot i = { s.slot i with state := new } := s.slot_setSlot_same i _ hi
        rw [this]
        simp [hs, Ne.symm hn]
      · have : (s.setSlotState i new).slot j = s.slot j := s.slot_setSlot_other i j _ hj
        rw [this]
        simp [Ne.symm hj]
    · next hs =>
      rw [ih s j hr]
      by_cases hj : j = i
      · subst hj; simp [hs]
      · simp [hj]

theorem dropWrite_frame (s : State) (r : Reason) : WorkFrame s (dropWrite r s) :=
  WorkFrame.trans _ _ _ (WorkFrame.trans _ _ _ (WorkFrame.trans _ _ _ (reportWrite_frame s r) (setDisp_frame _ _))
    (setBoost_frame _ _)) (closePort_frame _)

/-- Dropping the held write leaves every domain, slot and queue of the log as it was. -/
theorem dropWrite_only (s : State) (r : Reason) :
    dropWrite r s = { s with port := (dropWrite r s).port, memPort := { s.memPort with boost := false },
                             events := (dropWrite r s).events } := by
  unfold dropWrite reportWrite record
  split <;> rfl

theorem startRollback_frame (s : State) (d : Fin 4) (c : Cause) : WorkFrame s (startRollback d c s) :=
  WorkFrame.trans _ _ _ (moveSlots_frame _ _ _ s) (State.setDom_frame _ _ _)

/-- Start of rollback for one domain leaves the other domains' records as they were and gives its own the restore list and the
stream of R33 and R85. -/
theorem startRollback_dom (s : State) (d e : Fin 4) (c : Cause) :
    (startRollback d c s).dom e =
      if d = e then
        { s.dom d with
          state := .rolling, timer := 0, restoreList := (s.dom d).members.reverse, members := []
          stream := some { epoch := (s.dom d).openEpoch, cause := c, slot := none, pos := .read 0, back := false, restored := 0 } }
      else s.dom e := by
  unfold startRollback
  rw [State.dom_setDom]
  split
  · rfl
  · rw [moveSlots_only_pool]; rfl

theorem endRollback_frame (s : State) (d : Fin 4) : WorkFrame s (endRollback d s) := by
  unfold endRollback
  dsimp only
  split
  · exact WorkFrame.refl s
  · exact WorkFrame.trans _ _ _ (State.setDom_frame _ _ _) (record_frame _ _)

theorem beginRestore_frame (s : State) (d : Fin 4) : WorkFrame s (beginRestore d s) := by
  unfold beginRestore
  dsimp only
  split
  · exact WorkFrame.refl s
  · split
    · exact WorkFrame.refl s
    · split
      · exact endRollback_frame s d
      · split
        · exact WorkFrame.refl s
        · exact State.setDom_frame _ _ _

theorem dropHeld_frame (s : State) (d : Fin 4) : WorkFrame s (dropHeld d s) := by
  unfold dropHeld
  split
  · split <;> first | exact WorkFrame.refl s | exact dropWrite_frame s _ | skip
    split
    · exact WorkFrame.refl s
    · exact dropWrite_frame s _
  · exact WorkFrame.refl s

theorem abortUpdate_frame (s : State) (d : Fin 4) (c : Cause) : WorkFrame s (abortUpdate d c s) :=
  WorkFrame.trans _ _ _ (WorkFrame.trans _ _ _ (startRollback_frame s d c) (dropHeld_frame _ d)) (beginRestore_frame _ d)

theorem strayDomain_frame (s : State) (d : Fin 4) : WorkFrame s (strayDomain d s) := by
  unfold strayDomain
  split
  · exact WorkFrame.trans _ _ _ (startRollback_frame s d _) (beginRestore_frame _ d)
  · exact WorkFrame.refl s

theorem stray_frame (s : State) : WorkFrame s (stray s) :=
  WorkFrame.trans _ _ _ (WorkFrame.trans _ _ _ (WorkFrame.trans _ _ _ (strayDomain_frame s 0) (strayDomain_frame _ 1))
    (strayDomain_frame _ 2)) (strayDomain_frame _ 3)

theorem blockWrite_frame (s : State) (r : Reason) (b : Bool) : WorkFrame s (blockWrite r b s) := by
  have h := WorkFrame.trans _ _ _ (setDisp_frame s (.block r)) (reportWrite_frame _ r)
  unfold blockWrite
  cases b
  · exact WorkFrame.trans _ _ _ h (closePort_frame _)
  · exact WorkFrame.trans _ _ _ (WorkFrame.trans _ _ _ h (stray_frame _)) (closePort_frame _)

theorem takeSlot_frame (s : State) (h : Hit) (i : Nat) (rest : List Nat) : WorkFrame s (takeSlot h i rest s) := by
  have h0 : ∀ v : State, ∀ q x c, WorkFrame v { v with freeQueue := q, slotIndex := x, copy := c } :=
    fun v q x c => ⟨rfl, rfl, rfl, rfl, rfl, rfl, rfl, rfl, rfl, rfl, rfl, rfl, rfl, rfl, rfl, rfl, rfl, rfl, rfl, rfl, rfl, rfl, rfl, fun h => h, fun h => h⟩
  exact WorkFrame.trans _ _ _ (WorkFrame.trans _ _ _ (WorkFrame.trans _ _ _ (WorkFrame.trans _ _ _ (h0 s _ _ _)
    (State.setDom_frame _ h.domain _)) (State.setSlot_frame _ i _)) (setStage_frame _ _)) (setBoost_frame _ _)

theorem seekSlot_frame (s : State) (h : Hit) : WorkFrame s (seekSlot h s) := by
  unfold seekSlot
  split
  · exact takeSlot_frame s h _ _
  · split
    · exact WorkFrame.trans _ _ _ (setStage_frame s _) (setBoost_frame _ _)
    · exact abortUpdate_frame s _ _

theorem joinRecord_frame (s : State) (h : Hit) : WorkFrame s (joinRecord h s) := by
  unfold joinRecord
  split
  · exact abortUpdate_frame s _ _
  · exact seekSlot_frame s h

theorem evaluateGuard_frame (s : State) (h : Hit) : WorkFrame s (evaluateGuard h s) := by
  unfold evaluateGuard
  dsimp only
  split
  · exact WorkFrame.trans _ _ _ (WorkFrame.trans _ _ _ (setBoost_frame s _) (State.setDom_frame _ _ _)) (setStage_frame _ _)
  · exact WorkFrame.trans _ _ _ (WorkFrame.trans _ _ _ (setBoost_frame s _) (setStage_frame _ _)) (abortUpdate_frame _ _ _)

theorem commitAttempt_frame (s : State) (h : Hit) : WorkFrame s (commitAttempt h s) := by
  unfold commitAttempt
  split
  · exact evaluateGuard_frame s h
  · exact WorkFrame.trans _ _ _ (setStage_frame s _) (setBoost_frame _ _)

theorem decideJournal_frame (s : State) (h : Hit) : WorkFrame s (decideJournal h s) := by
  unfold decideJournal
  split
  · exact joinRecord_frame s h
  · split
    · split
      · exact commitAttempt_frame s h
      · exact setStage_frame s _
    · exact joinRecord_frame s h
  · exact dropWrite_frame s _
  · exact dropWrite_frame s _
  · exact dropWrite_frame s _
  · exact WorkFrame.refl s
  · exact WorkFrame.refl s

theorem decideSlotAgain_frame (s : State) : WorkFrame s (decideSlotAgain s) := by
  unfold decideSlotAgain
  split
  · split
    · exact seekSlot_frame s _
    · exact WorkFrame.refl s
  · exact WorkFrame.refl s

theorem decideBacklogAgain_frame (s : State) : WorkFrame s (decideBacklogAgain s) := by
  unfold decideBacklogAgain
  split
  · split
    · split
      · exact evaluateGuard_frame s _
      · exact WorkFrame.refl s
    · exact WorkFrame.refl s
  · exact WorkFrame.refl s

/-- Changing the Port alone is inside the frame. -/
theorem port_frame (s : State) (p : HostPort) (h : s.port.waiting = none → p.waiting = none) :
    WorkFrame s { s with port := p } := ⟨rfl, rfl, rfl, rfl, rfl, rfl, rfl, rfl, rfl, rfl, rfl, rfl, rfl, rfl, rfl, rfl, rfl, rfl, rfl, rfl, rfl, rfl, rfl, fun h => h, h⟩

theorem handJournal_frame (s : State) (h : Hit) : WorkFrame s (handJournal h s) :=
  WorkFrame.trans _ _ _ (port_frame s _ (by exact fun h => h)) (decideJournal_frame _ h)

theorem takeWrite_frame (s : State) (c : Classification) : WorkFrame s (takeWrite c s) := by
  unfold takeWrite
  split
  · split
    · exact passAccess_frame s _
    · exact blockWrite_frame s _ _
    · split
      · exact blockWrite_frame s _ _
      · split
        · exact blockWrite_frame s _ _
        · exact handJournal_frame s _
  · split
    · exact blockWrite_frame s _ _
    · exact passAccess_frame s _
  · exact passAccess_frame s _

theorem takeAccess_frame (s : State) : WorkFrame s (takeAccess s) := by
  unfold takeAccess
  dsimp only
  split
  · split
    · exact WorkFrame.trans _ _ _ (port_frame s _ (by exact fun h => h)) (WorkFrame.trans _ _ _ (setDisp_frame _ _) (closePort_frame _))
    · exact WorkFrame.trans _ _ _ (port_frame s _ (by exact fun h => h)) (takeWrite_frame _ _)
  · exact WorkFrame.trans _ _ _ (port_frame s _ (by exact fun h => h)) (passAccess_frame _ _)

theorem arrive_frame (s : State) (c : BusCycle) : WorkFrame s (arrive c s) := by
  unfold arrive
  dsimp only
  split
  · exact port_frame s _ (by exact fun _ => rfl)
  · exact WorkFrame.trans _ _ _ (port_frame s _ (by exact fun _ => rfl)) (takeAccess_frame _)

theorem endHold_frame (s : State) : WorkFrame s (endHold s) := by
  unfold endHold
  split
  · split
    · exact WorkFrame.refl s
    · exact takeAccess_frame s
  · split
    · exact closePort_frame s
    · exact WorkFrame.refl s
  · exact WorkFrame.refl s

/-! ### Runtime streams -/

theorem copyDone_frame (s : State) (c : CopyStream) : WorkFrame s (copyDone c s) := by
  have h0 : WorkFrame s { s with copy := none } := ⟨rfl, rfl, rfl, rfl, rfl, rfl, rfl, rfl, rfl, rfl, rfl, rfl, rfl, rfl, rfl, rfl, rfl, rfl, rfl, rfl, rfl, rfl, rfl, fun h => h, fun h => h⟩
  unfold copyDone
  dsimp only
  split
  · have h1 := WorkFrame.trans _ _ _ h0 (State.setSlotState_frame { s with copy := none } c.slot .active)
    split
    · split
      · exact WorkFrame.trans _ _ _ h1 (commitAttempt_frame _ _)
      · exact WorkFrame.trans _ _ _ h1 (setStage_frame _ _)
    · exact h1
  · exact WorkFrame.trans _ _ _ (WorkFrame.trans _ _ _ (WorkFrame.trans _ _ _ (WorkFrame.trans _ _ _ h0
      (State.setSlotState_frame _ _ _)) (setStage_frame _ _)) (dropHeld_frame _ _)) (beginRestore_frame _ _)
  · exact h0

theorem copyNotBlank_frame (s : State) (c : CopyStream) : WorkFrame s (copyNotBlank c s) := by
  have h0 : WorkFrame s { s with copy := none, freeQueue := c.slot :: s.freeQueue } := ⟨rfl, rfl, rfl, rfl, rfl, rfl, rfl, rfl, rfl, rfl, rfl, rfl, rfl, rfl, rfl, rfl, rfl, rfl, rfl, rfl, rfl, rfl, rfl, fun h => h, fun h => h⟩
  have h1 := WorkFrame.trans _ _ _ (WorkFrame.trans _ _ _ h0 (State.unindex_frame _ c.slot))
    (State.setSlot_frame _ c.slot .freeEntry)
  unfold copyNotBlank
  dsimp only
  split
  · exact WorkFrame.trans _ _ _ (WorkFrame.trans _ _ _ h1 (State.setDom_frame _ _ _)) (blockWrite_frame _ _ _)
  · exact WorkFrame.trans _ _ _ (WorkFrame.trans _ _ _ (WorkFrame.trans _ _ _ (WorkFrame.trans _ _ _ h1
      (State.setDom_frame _ _ _)) (setStage_frame _ _)) (dropHeld_frame _ _)) (beginRestore_frame _ _)
  · exact h1

theorem copyFault_frame (s : State) (c : CopyStream) (a : Addr) : WorkFrame s (copyFault c a s) := by
  have h0 : WorkFrame s { s with copy := none } := ⟨rfl, rfl, rfl, rfl, rfl, rfl, rfl, rfl, rfl, rfl, rfl, rfl, rfl, rfl, rfl, rfl, rfl, rfl, rfl, rfl, rfl, rfl, rfl, fun h => h, fun h => h⟩
  have h1 := WorkFrame.trans _ _ _ (WorkFrame.trans _ _ _ (WorkFrame.trans _ _ _ h0 (State.unindex_frame _ c.slot))
    (State.setSlot_frame _ c.slot .badEntry)) (record_frame _ (.mediaFault .copy (some c.slot) a))
  unfold copyFault
  dsimp only
  split
  · exact WorkFrame.trans _ _ _ (WorkFrame.trans _ _ _ (WorkFrame.trans _ _ _ h1 (State.setDom_frame _ _ _))
      (setStage_frame _ _)) (abortUpdate_frame _ _ _)
  · exact WorkFrame.trans _ _ _ (WorkFrame.trans _ _ _ (WorkFrame.trans _ _ _ (WorkFrame.trans _ _ _ h1
      (State.setDom_frame _ _ _)) (setStage_frame _ _)) (dropHeld_frame _ _)) (beginRestore_frame _ _)
  · exact h1

theorem copyTakes_frame (s : State) (data : Word) : WorkFrame s (copyTakes data s) := by
  unfold copyTakes
  split
  · exact WorkFrame.refl s
  · split
    · exact ⟨rfl, rfl, rfl, rfl, rfl, rfl, rfl, rfl, rfl, rfl, rfl, rfl, rfl, rfl, rfl, rfl, rfl, rfl, rfl, rfl, rfl, rfl, rfl, fun h => h, fun h => h⟩
    · exact copyDone_frame s _
    · exact copyNotBlank_frame s _
    · exact copyFault_frame s _ _

theorem commitDone_frame (s : State) (d : Fin 4) : WorkFrame s (commitDone d s) := by
  have h1 := moveSlots_frame .active .retiring (s.dom d).members s
  have h2 : ∀ u v : State, ∀ q i, u = { v with commit := none, retireQueue := q, slotIndex := i } → WorkFrame v u := by
    intro u v q i h; subst h; exact ⟨rfl, rfl, rfl, rfl, rfl, rfl, rfl, rfl, rfl, rfl, rfl, rfl, rfl, rfl, rfl, rfl, rfl, rfl, rfl, rfl, rfl, rfl, rfl, fun h => h, fun h => h⟩
  unfold commitDone
  dsimp only
  refine WorkFrame.trans _ _ _ (WorkFrame.trans _ _ _ (WorkFrame.trans _ _ _ (WorkFrame.trans _ _ _
    (WorkFrame.trans _ _ _ h1 (h2 _ _ _ _ rfl)) (State.setDom_frame _ d _)) (record_frame _ _)) (setDisp_frame _ .pass))
    (closePort_frame _)

theorem commitFault_frame (s : State) (d : Fin 4) : WorkFrame s (commitFault d s) := by
  have h1 := moveSlots_frame .active .stranded (s.dom d).members s
  have h2 : ∀ u v : State, u = { v with commit := none } → WorkFrame v u := by
    intro u v h; subst h; exact ⟨rfl, rfl, rfl, rfl, rfl, rfl, rfl, rfl, rfl, rfl, rfl, rfl, rfl, rfl, rfl, rfl, rfl, rfl, rfl, rfl, rfl, rfl, rfl, fun h => h, fun h => h⟩
  unfold commitFault
  dsimp only
  exact WorkFrame.trans _ _ _ (WorkFrame.trans _ _ _ (WorkFrame.trans _ _ _ (WorkFrame.trans _ _ _ (WorkFrame.trans _ _ _
    (WorkFrame.trans _ _ _ h1 (h2 _ _ rfl)) (State.setDom_frame _ d _)) (record_frame _ _)) (record_frame _ _))
    (setDisp_frame _ .pass)) (closePort_frame _)

theorem commitTakes_frame (s : State) (data : Word) : WorkFrame s (commitTakes data s) := by
  unfold commitTakes
  split
  · exact WorkFrame.refl s
  · split
    · split
      · exact commitDone_frame s _
      · exact commitFault_frame s _
    · split
      · exact ⟨rfl, rfl, rfl, rfl, rfl, rfl, rfl, rfl, rfl, rfl, rfl, rfl, rfl, rfl, rfl, rfl, rfl, rfl, rfl, rfl, rfl, rfl, rfl, fun h => h, fun h => h⟩
      · exact commitDone_frame s _

theorem retireLeaves_frame (s : State) (i : Nat) (e : PoolEntry) : WorkFrame s (retireLeaves i e s) := ⟨rfl, rfl, rfl, rfl, rfl, rfl, rfl, rfl, rfl, rfl, rfl, rfl, rfl, rfl, rfl, rfl, rfl, rfl, rfl, rfl, rfl, rfl, rfl, fun h => h, fun h => h⟩

theorem retireDone_frame (s : State) (i : Nat) : WorkFrame s (retireDone i s) := by
  have h0 : ∀ v : State, ∀ q, WorkFrame v { v with freeQueue := q } := fun v q => ⟨rfl, rfl, rfl, rfl, rfl, rfl, rfl, rfl, rfl, rfl, rfl, rfl, rfl, rfl, rfl, rfl, rfl, rfl, rfl, rfl, rfl, rfl, rfl, fun h => h, fun h => h⟩
  exact WorkFrame.trans _ _ _ (WorkFrame.trans _ _ _ (WorkFrame.trans _ _ _ (retireLeaves_frame s i .freeEntry) (h0 _ _))
    (decideSlotAgain_frame _)) (decideBacklogAgain_frame _)

theorem retireFault_frame (s : State) (i : Nat) : WorkFrame s (retireFault i s) :=
  WorkFrame.trans _ _ _ (WorkFrame.trans _ _ _ (WorkFrame.trans _ _ _ (retireLeaves_frame s i .badEntry) (record_frame _ _))
    (decideSlotAgain_frame _)) (decideBacklogAgain_frame _)

theorem retireTakes_frame (s : State) (data : Word) : WorkFrame s (retireTakes data s) := by
  unfold retireTakes
  split
  · exact WorkFrame.refl s
  · split
    · split
      · exact retireDone_frame s _
      · exact retireFault_frame s _
    · split
      · exact ⟨rfl, rfl, rfl, rfl, rfl, rfl, rfl, rfl, rfl, rfl, rfl, rfl, rfl, rfl, rfl, rfl, rfl, rfl, rfl, rfl, rfl, rfl, rfl, fun h => h, fun h => h⟩
      · exact retireDone_frame s _

theorem restoreSlotDone_frame (s : State) (d : Fin 4) (st : RestoreStream) (i : Nat) :
    WorkFrame s (restoreSlotDone d st i s) := by
  have h0 : ∀ v : State, ∀ q, WorkFrame v { v with freeQueue := q } := fun v q => ⟨rfl, rfl, rfl, rfl, rfl, rfl, rfl, rfl, rfl, rfl, rfl, rfl, rfl, rfl, rfl, rfl, rfl, rfl, rfl, rfl, rfl, rfl, rfl, fun h => h, fun h => h⟩
  exact WorkFrame.trans _ _ _ (WorkFrame.trans _ _ _ (WorkFrame.trans _ _ _ (WorkFrame.trans _ _ _ (WorkFrame.trans _ _ _
    (State.unindex_frame s i) (State.setSlot_frame _ i _)) (h0 _ _)) (State.setDom_frame _ d _)) (decideSlotAgain_frame _))
    (beginRestore_frame _ d)

theorem restoreTagFault_frame (s : State) (d : Fin 4) (st : RestoreStream) (i : Nat) :
    WorkFrame s (restoreTagFault d st i s) :=
  WorkFrame.trans _ _ _ (WorkFrame.trans _ _ _ (WorkFrame.trans _ _ _ (WorkFrame.trans _ _ _ (WorkFrame.trans _ _ _
    (State.unindex_frame s i) (State.setSlot_frame _ i _)) (State.setDom_frame _ d _)) (record_frame _ _))
    (decideSlotAgain_frame _)) (beginRestore_frame _ d)

theorem restoreRecordFault_frame (s : State) (d : Fin 4) (st : RestoreStream) (i : Nat) (a : Addr) :
    WorkFrame s (restoreRecordFault d st i a s) :=
  WorkFrame.trans _ _ _ (WorkFrame.trans _ _ _ (WorkFrame.trans _ _ _ (WorkFrame.trans _ _ _ (WorkFrame.trans _ _ _
    (moveSlots_frame _ _ _ s) (State.setDom_frame _ d _)) (record_frame _ _)) (record_frame _ _)) (record_frame _ _))
    (decideSlotAgain_frame _)

theorem restoreTakes_frame (s : State) (d : Fin 4) (data : Word) : WorkFrame s (restoreTakes d data s) := by
  unfold restoreTakes
  split
  · exact WorkFrame.refl s
  · split
    · exact WorkFrame.refl s
    · split
      · exact State.setDom_frame s d _
      · exact restoreSlotDone_frame s d _ _
      · exact restoreTagFault_frame s d _ _
      · exact restoreRecordFault_frame s d _ _ _

theorem hostTakes_frame (s : State) (data : Word) : WorkFrame s (hostTakes data s) := by
  unfold hostTakes
  split
  · split
    · exact closePort_frame s
    · exact WorkFrame.trans _ _ _ (port_frame s _ (by exact fun h => h)) (closePort_frame _)
  · split
    · exact WorkFrame.trans _ _ _ (setDisp_frame s _) (closePort_frame _)
    · exact ⟨rfl, rfl, rfl, rfl, rfl, rfl, rfl, rfl, rfl, rfl, rfl, rfl, rfl, rfl, rfl, rfl, rfl, rfl, rfl, rfl, rfl, rfl, rfl, fun h => h, fun h => h⟩
    · exact WorkFrame.refl s
  · exact WorkFrame.refl s

end Sys2Proof.Machine
end

