-- ==== Sys2Proof/Laws/Arbiter.lean ====
section
/-! SUPPORT. What the end of a step does: the grant decision, the beginning of LOAD, and the arrival of a waiting cycle. -/

namespace Sys2Proof.Machine

/-- Every claimant has a place in the arbiter's order. -/
theorem mem_claimants (c : Claimant) : c ∈ claimants := by
  cases c with
  | restore d => fin_cases d <;> simp [claimants]
  | _ => simp [claimants]

/-- A claimant stands when its next access is ready. -/
theorem mem_standing (s : State) (c : Claimant) : c ∈ s.standing ↔ (accessOf s c).isSome = true := by
  simp [State.standing, mem_claimants, State.claims]

/-- The best claim is a standing claim. -/
theorem bestClaim_mem (s : State) (c : Claimant) (h : bestClaim s = some c) : c ∈ s.standing := by
  have := List.find?_some h
  exact (mem_standing s c).2 this

/-- With no best claim, no claim stands. -/
theorem bestClaim_none (s : State) (h : bestClaim s = none) : s.standing = [] := by
  unfold bestClaim at h
  rw [List.find?_eq_none] at h
  rw [List.eq_nil_iff_forall_not_mem]
  intro c hc
  rw [mem_standing] at hc
  refine h c ?_ hc
  cases c with
  | restore d =>
    have : ∃ p, p ∈ roundRobin s.memPort.pointer ∧ positionClaimant p = .restore d := by
      generalize s.memPort.pointer = q
      fin_cases d <;> fin_cases q <;> decide
    obtain ⟨p, hp, hpc⟩ := this
    simp only [List.mem_append, List.mem_map]
    exact Or.inl (Or.inr ⟨p, hp, hpc⟩)
  | install =>
    have : ∃ p, p ∈ roundRobin s.memPort.pointer ∧ positionClaimant p = .install := by
      generalize s.memPort.pointer = q
      fin_cases q <;> decide
    obtain ⟨p, hp, hpc⟩ := this
    simp only [List.mem_append, List.mem_map]
    exact Or.inl (Or.inr ⟨p, hp, hpc⟩)
  | _ => simp

/-- A grant decision, whichever kind of event brought it (R107). -/
theorem arbitrate_granted (b : Bool) (u : State) : Granted u (arbitrate b u) := by
  unfold arbitrate
  split
  · next h =>
    refine ⟨rfl, fun _ h => h, fun _ => rfl, ?_, ?_⟩
    · intro h1 h2 _; simp [h1, h2] at h
    · intro h1 h2; simp [h1, h2] at h
  · next h =>
    simp only [Bool.or_eq_true, not_or, Bool.not_eq_true, Option.isSome_eq_false_iff, Option.isNone_iff_eq_none] at h
    obtain ⟨ha, hs⟩ := h
    split
    · next h2 =>
      simp only [Bool.and_eq_true, decide_eq_true_eq] at h2
      have hlen : Config.arrivalPick u.arrivals % u.standing.length < u.standing.length := Nat.mod_lt _ (by omega)
      refine ⟨rfl, ?_, ?_, ?_, ?_⟩
      · intro a h; simp [ha] at h
      · intro h; simp [hs] at h
      · intro _ _ h; simp [h] at h2
      · intro _ _ _
        refine ⟨_, ?_, rfl⟩
        rw [List.getD_eq_getElem?_getD, List.getElem?_eq_getElem hlen]
        exact List.getElem_mem hlen
    · split
      · next hb =>
        refine ⟨rfl, fun _ h => h, fun _ => rfl, fun h _ _ => h, ?_⟩
        intro _ _ h; exact absurd (bestClaim_none u hb) h
      · next c hb =>
        refine ⟨rfl, ?_, ?_, ?_, ?_⟩
        · intro a h; simp [ha] at h
        · intro h; simp [hs] at h
        · intro _ _ h; have := bestClaim_mem u c hb; simp [h] at this
        · intro _ _ _; exact ⟨c, bestClaim_mem u c hb, rfl⟩

/-- At a completion the claim of highest rank begins its access, and the pointer moves with a grant at rank 3 (R107, R109). -/
theorem arbitrate_completion (u : State) (c : Claimant) (ha : u.memPort.access = none) (hs : u.memPort.stopped = false)
    (hc : bestClaim u = some c) : arbitrate true u = grant c u := by
  unfold arbitrate
  simp [ha, hs, hc]

/-- Which claims stand does not depend on the Memory Port. -/
theorem accessOf_memPort (u : State) (p : MemPort) (n : Nat) (c : Claimant) :
    accessOf { u with memPort := p, arrivals := n } c = accessOf u c := by
  cases c <;> rfl

/-- After a grant decision no claim is left at an idle port that is not stopped. -/
theorem arbitrate_settled (b : Bool) (u : State) : (arbitrate b u).Settled := by
  have hg := arbitrate_granted b u
  have hst : (arbitrate b u).standing = u.standing := by
    unfold State.standing
    congr 1
    funext c
    unfold State.claims
    rw [hg.only, accessOf_memPort]
  intro ha hs
  rw [hst]
  have hs' : u.memPort.stopped = false := by rw [hg.only] at hs; exact hs
  cases hua : u.memPort.access with
  | some a => rw [hg.kept a hua] at ha; simp at ha
  | none =>
    by_contra hne
    obtain ⟨c, hc, hac⟩ := hg.begun hua hs' hne
    rw [mem_standing] at hc
    rw [hac] at ha
    simp [ha] at hc

/-- LOAD does not begin outside STARTING. -/
theorem loadBegin_eq (u : State) (h : u.loadReady = false) : loadBegin u = u := by
  unfold loadBegin
  simp [h]

/-- The end of a step is one grant decision when no LOAD is to begin and no cycle waits at a vacant Port (R107). -/
theorem settleStep_granted (b : Bool) (u : State) (hl : u.loadReady = false) (hw : u.NoCycleWaits) :
    Granted u (settleStep b u) := by
  have hg := arbitrate_granted b u
  have hp : (arbitrate b u).port = u.port := by rw [hg.only]
  unfold settleStep
  rw [loadBegin_eq u hl]
  dsimp only
  rw [hp]
  split
  · next hv hc => rw [hw hv] at hc; simp at hc
  · exact hg

/-- After the end of a step no claim is left at an idle port that is not stopped. -/
theorem settleStep_settled (b : Bool) (u : State) : (settleStep b u).Settled := by
  unfold settleStep
  dsimp only
  split
  · exact arbitrate_settled _ _
  · exact arbitrate_settled _ _

/-- After the end of a step no cycle is left waiting at a vacant Port (R65). -/
theorem settleStep_noCycleWaits (b : Bool) (u : State) : (settleStep b u).NoCycleWaits := by
  unfold settleStep
  dsimp only
  split
  · next c _ hw =>
    intro _
    have hp : (arrive c (arbitrate b (loadBegin u))).port.waiting = none := by
      unfold arrive
      dsimp only
      split
      · rfl
      · exact (takeAccess_frame _).noWaiting rfl
    rw [(arbitrate_granted false _).only]
    exact hp
  · next hne =>
    intro hv
    cases hw : (arbitrate b (loadBegin u)).port.waiting with
    | none => rfl
    | some c => exact absurd hw (hne c hv)

/-- A part that is not STARTING begins no LOAD. -/
theorem loadReady_of_mode (u : State) (h : u.mode ≠ .starting) : u.loadReady = false := by
  unfold State.loadReady
  simp [h]

/-- What no end of a step touches. -/
structure SettleFrame (s t : State) : Prop where
  powered : t.powered = s.powered
  pfwAsserted : t.pfwAsserted = s.pfwAsserted
  resetAsserted : t.resetAsserted = s.resetAsserted
  resetTaken : t.resetTaken = s.resetTaken
  straps : t.straps = s.straps
  mode : t.mode = s.mode
  layout : t.layout = s.layout
  activeCopy : t.activeCopy = s.activeCopy
  activeSequence : t.activeSequence = s.activeSequence
  geometry : t.geometry = s.geometry
  install : t.install = s.install
  mask : t.mask = s.mask
  link : t.link = s.link
  staging : t.staging = s.staging
  memory : t.memory = s.memory
  pending : t.pending = s.pending
  kept : ∀ a, s.memPort.access = some a → t.memPort.access = some a
  eventsFit : s.events.length ≤ 16 → t.events.length ≤ 16

theorem SettleFrame.trans (s t u : State) (h1 : SettleFrame s t) (h2 : SettleFrame t u) : SettleFrame s u :=
  ⟨h2.powered.trans h1.powered, h2.pfwAsserted.trans h1.pfwAsserted, h2.resetAsserted.trans h1.resetAsserted,
   h2.resetTaken.trans h1.resetTaken, h2.straps.trans h1.straps, h2.mode.trans h1.mode, h2.layout.trans h1.layout,
   h2.activeCopy.trans h1.activeCopy, h2.activeSequence.trans h1.activeSequence, h2.geometry.trans h1.geometry,
   h2.install.trans h1.install, h2.mask.trans h1.mask, h2.link.trans h1.link, h2.staging.trans h1.staging,
   h2.memory.trans h1.memory, h2.pending.trans h1.pending, fun a h => h2.kept a (h1.kept a h),
   fun h => h2.eventsFit (h1.eventsFit h)⟩

theorem Granted.settleFrame (u t : State) (h : Granted u t) : SettleFrame u t := by
  have ho := h.only
  refine ⟨?_, ?_, ?_, ?_, ?_, ?_, ?_, ?_, ?_, ?_, ?_, ?_, ?_, ?_, ?_, ?_, h.kept, ?_⟩ <;> (rw [ho])
  exact fun h => h

theorem WorkFrame.settleFrame (s t : State) (h : WorkFrame s t) : SettleFrame s t :=
  ⟨h.powered, h.pfwAsserted, h.resetAsserted, h.resetTaken, h.straps, h.mode, h.layout, h.activeCopy, h.activeSequence,
   h.geometry, h.install, h.mask, h.link, h.staging, h.memory, h.pending, fun a ha => by rw [h.access]; exact ha,
   h.eventsFit⟩

theorem loadBegin_frame (s : State) : SettleFrame s (loadBegin s) := by
  unfold loadBegin
  split <;> exact ⟨rfl, rfl, rfl, rfl, rfl, rfl, rfl, rfl, rfl, rfl, rfl, rfl, rfl, rfl, rfl, rfl, fun _ h => h, fun h => h⟩

/-- The end of a step keeps all that the frame names, an access in progress among it (R104). -/
theorem settleStep_frame (b : Bool) (s : State) : SettleFrame s (settleStep b s) := by
  have h1 := SettleFrame.trans _ _ _ (loadBegin_frame s) (arbitrate_granted b (loadBegin s)).settleFrame
  unfold settleStep
  dsimp only
  split
  · exact SettleFrame.trans _ _ _ h1
      (SettleFrame.trans _ _ _ (arrive_frame _ _).settleFrame (arbitrate_granted false _).settleFrame)
  · exact h1

end Sys2Proof.Machine
end

