-- ==== Sys2Proof/Laws/Abort.lean ====
section
/-! SUPPORT. What an abort does, said once for each of its shapes: the rollback begun, the rollback ended at once, and the held
write dropped. -/

namespace Sys2Proof.Machine

/-- Moving slots, said of the whole pool. -/
theorem moveSlots_pool (old new : SlotState) (hn : old ≠ new) (l : List Nat) : ∀ s : State,
    (moveSlots old new l s).pool = movedPool old new l s.pool := by
  induction l with
  | nil =>
    intro s
    simp [moveSlots, movedPool]
    exact (List.mapIdx_eq_iff.2 (by intro i; simp)).symm
  | cons i rest ih =>
    intro s
    unfold moveSlots
    rw [ih]
    apply List.ext_getElem?
    intro j
    simp only [movedPool, List.getElem?_mapIdx]
    split
    · next hs =>
      simp only [State.setSlotState, State.setSlot, List.getElem?_set]
      by_cases hj : i = j
      · subst hj
        by_cases hlt : i < s.pool.length
        · have he : s.slot i = s.pool[i] := by simp [State.slot, List.getD_eq_getElem?_getD, hlt]
          rw [he] at hs ⊢
          simp [hlt, hs, Ne.symm hn]
        · simp [hlt]
      · simp [hj, Ne.symm hj]
    · next hs =>
      cases hp : s.pool[j]? with
      | none => simp
      | some e =>
        by_cases hj : j = i
        · subst hj
          have he : s.slot j = e := by simp [State.slot, List.getD_eq_getElem?_getD, hp]
          rw [he] at hs
          simp [hs]
        · simp [hj]

/-- Start of rollback changes the domain's record and the pool only. -/
theorem startRollback_only (s : State) (d : Fin 4) (c : Cause) :
    startRollback d c s =
      { s with
        domains := s.domains.set d { s.dom d with
          state := .rolling, timer := 0, restoreList := (s.dom d).members.reverse, members := []
          stream := some { epoch := (s.dom d).openEpoch, cause := c, slot := none, pos := .read 0, back := false, restored := 0 } }
        pool := movedPool .active .restoring (s.dom d).members s.pool } := by
  unfold startRollback
  dsimp only
  rw [moveSlots_only_pool, moveSlots_pool _ _ (by decide)]
  rfl

/-- Moving ACTIVE slots to RESTORING neither makes nor ends a COPYING slot. -/
theorem copying_movedPool (l : List Nat) (s : State) (j : Nat) :
    (({ s with pool := movedPool .active .restoring l s.pool } : State).slot j).state = .copying ↔ (s.slot j).state = .copying := by
  simp only [State.slot, movedPool, List.getD_eq_getElem?_getD, List.getElem?_mapIdx]
  cases s.pool[j]? with
  | none => simp
  | some e =>
    simp only [Option.map_some, Option.getD_some]
    split
    · next h => simp [h.2]
    · exact Iff.rfl

/-- A rollback with members, none of them COPYING, begins its first restore at once (R86). -/
theorem rollback_begins (s : State) (d : Fin 4) (c : Cause) (hne : (s.dom d).members ≠ [])
    (hc : ∀ i ∈ (s.dom d).members, (s.slot i).state ≠ .copying) :
    beginRestore d (startRollback d c s) =
      { s with
        domains := s.domains.set d ((s.dom d).rolledBack c)
        pool := movedPool .active .restoring (s.dom d).members s.pool } := by
  have hr : (s.dom d).members.reverse ≠ [] := by simpa using hne
  obtain ⟨i, rest, hl⟩ := List.exists_cons_of_ne_nil hr
  have hdom := startRollback_dom s d d c
  rw [if_pos rfl] at hdom
  have hany : ((i :: rest).any fun j => decide (((startRollback d c s).slot j).state = .copying)) = false := by
    rw [List.any_eq_false]
    intro j hj
    have hm : j ∈ (s.dom d).members := by rw [← hl] at hj; simpa using hj
    have h1 : ((startRollback d c s).slot j).state = .copying ↔ (s.slot j).state = .copying := by
      rw [startRollback_only]
      exact copying_movedPool (s.dom d).members s j
    simp [h1, hc j hm]
  unfold beginRestore
  rw [hdom]
  simp only [hl, Option.isSome_none, Bool.false_eq_true, if_false, hany]
  rw [startRollback_only]
  simp [State.setDom, Runtime.rolledBack, hl, Runtime.openEpoch]

/-- A rollback with no members ends at once (R35, R89). -/
theorem rollback_ends (s : State) (d : Fin 4) (c : Cause) (he : (s.dom d).members = []) :
    beginRestore d (startRollback d c s) =
      record (.aborted d ((s.dom d).committed + 1) c 0)
        { s with
          domains := s.domains.set d { s.dom d with
            state := if (s.cfg d).fence then .fenced else .idle, timer := 0, members := [], restoreList := [], stream := none } } := by
  have hdom := startRollback_dom s d d c
  rw [if_pos rfl] at hdom
  unfold beginRestore
  rw [hdom]
  simp only [he, List.reverse_nil, Option.isSome_none, Bool.false_eq_true, if_false]
  unfold endRollback
  rw [hdom, startRollback_only]
  have hp : movedPool .active .restoring [] s.pool = s.pool := by
    simp [movedPool]
    exact List.mapIdx_eq_iff.2 (by intro i; simp)
  simp only [he, hp, State.setDom, State.cfg, Runtime.openEpoch, List.reverse_nil, Vector.set_set]
  rfl

/-- Dropping a held write leaves the domains and the pool alone, so it can be taken before the rollback. -/
theorem dropHeld_none (s : State) (d : Fin 4) (h : s.holdsWriteOf d = false) : dropHeld d s = s := by
  unfold dropHeld
  simp [h]

/-- The held write is the Port's own matter: starting a rollback does not change it. -/
theorem holdsWriteOf_startRollback (s : State) (d e : Fin 4) (c : Cause) :
    (startRollback d c s).holdsWriteOf e = s.holdsWriteOf e := by
  rw [startRollback_only]; rfl

/-- An abort of an update with members, none COPYING and with no write of the domain held (R33, R86). -/
theorem abortUpdate_begins (s : State) (d : Fin 4) (c : Cause) (hne : (s.dom d).members ≠ [])
    (hc : ∀ i ∈ (s.dom d).members, (s.slot i).state ≠ .copying) (hh : s.holdsWriteOf d = false) :
    abortUpdate d c s =
      { s with
        domains := s.domains.set d ((s.dom d).rolledBack c)
        pool := movedPool .active .restoring (s.dom d).members s.pool } := by
  unfold abortUpdate
  rw [dropHeld_none _ _ (by rw [holdsWriteOf_startRollback]; exact hh)]
  exact rollback_begins s d c hne hc

/-- A dropped write: the Port ended, the boost withdrawn, the event posted (R34, R78, R110). -/
theorem dropWrite_eq (s : State) (r : Reason) :
    dropWrite r s =
      { s with
        port := s.port.ended (.drop r)
        memPort := { s.memPort with boost := false }
        events := (record (blockedEvent r s.port.cycle s.port.cls) s).events } := by
  unfold dropWrite reportWrite record
  split <;> rfl

/-- A blocked write that raises no STRAY: the event posted, the Port ended (R77, R78). -/
theorem blockWrite_eq (s : State) (r : Reason) :
    blockWrite r false s =
      { s with
        port := s.port.ended (.block r)
        events := (record (blockedEvent r s.port.cycle s.port.cls) s).events } := by
  unfold blockWrite reportWrite record
  cases hb : s.mask.getLsbD (blockedEvent r s.port.cycle s.port.cls).maskBit <;>
    simp [hb, setDisp, closePort, HostPort.ended]

/-- An abort that meets a held write of its domain which waits for no copy and has no store in progress drops it, as if it had
been dropped first (R34). -/
theorem abortUpdate_drops (s : State) (d : Fin 4) (c : Cause) (hh : s.holdsWriteOf d = true)
    (hs : s.port.stage = .none ∨ s.port.stage = .slot ∨ s.port.stage = .backlog) :
    abortUpdate d c s = beginRestore d (startRollback d c (dropWrite .dropped s)) := by
  have h1 : dropHeld d (startRollback d c s) = dropWrite .dropped (startRollback d c s) := by
    have h2 : (startRollback d c s).holdsWriteOf d = true := by rw [holdsWriteOf_startRollback]; exact hh
    have h3 : (startRollback d c s).port = s.port := by rw [startRollback_only]
    unfold dropHeld
    rw [if_pos h2, h3]
    rcases hs with h | h | h <;> rw [h]
  have h4 : dropWrite .dropped (startRollback d c s) = startRollback d c (dropWrite .dropped s) := by
    rw [startRollback_only, startRollback_only, dropWrite_eq, dropWrite_eq]
    unfold record
    dsimp only
    split <;> rfl
  unfold abortUpdate
  rw [h1, h4]

end Sys2Proof.Machine
end

