-- ==== Sys2Proof/Laws/Memory.lean ====
section
/-! SUPPORT. Laws of the memory: reading after writing, and that every memory operation keeps the canonical form. -/

namespace Sys2Proof.Machine

/-- A canonical list from `lo` on reads as unwritten below `lo`. -/
theorem Memory.byteAt_below (m : List Host.Cell) : ∀ (lo c : Nat), Memory.wfFrom lo m = true → c < lo →
    Memory.byteAt m c = Memory.unwritten := by
  cases m with
  | nil => intros; rfl
  | cons p rest =>
    obtain ⟨k, b⟩ := p
    intro lo c h hc
    simp only [Memory.wfFrom, Bool.and_eq_true, decide_eq_true_eq] at h
    have h1 : c ≠ k := by omega
    have h2 : c < k := by omega
    simp [Memory.byteAt, h1, h2]

/-- The canonical form from `lo` on is one from any lower cell on. -/
theorem Memory.wfFrom_mono (m : List Host.Cell) (lo lo' : Nat) (h : Memory.wfFrom lo m = true) (hl : lo' ≤ lo) :
    Memory.wfFrom lo' m = true := by
  cases m with
  | nil => rfl
  | cons p rest =>
    simp only [Memory.wfFrom, Bool.and_eq_true, decide_eq_true_eq] at h ⊢
    exact ⟨⟨⟨by omega, h.1.1.2⟩, h.1.2⟩, h.2⟩

/-- Writing a byte keeps the canonical form. -/
theorem Memory.wfFrom_setByte (m : List Host.Cell) : ∀ (lo c : Nat) (b : Byte), Memory.wfFrom lo m = true → lo ≤ c →
    c < Memory.cells → Memory.wfFrom lo (Memory.setByte m c b) = true := by
  induction m with
  | nil =>
    intro lo c b _ hl hc
    by_cases hb : b = Memory.unwritten <;> simp [Memory.setByte, Memory.wfFrom, hb, hl, hc]
  | cons p rest ih =>
    obtain ⟨k, x⟩ := p
    intro lo c b h hl hc
    simp only [Memory.wfFrom, Bool.and_eq_true, decide_eq_true_eq] at h
    obtain ⟨⟨⟨h1, h2⟩, h3⟩, h4⟩ := h
    unfold Memory.setByte
    split
    · next he =>
      subst he
      split
      · exact Memory.wfFrom_mono rest _ _ h4 (by omega)
      · next hb => simp [Memory.wfFrom, hb, hl, hc, h4]
    · next hne =>
      split
      · next hlt =>
        split
        · simp [Memory.wfFrom, h1, h2, h3, h4]
        · next hb => simp [Memory.wfFrom, hb, hl, hc, h2, h3, h4]; omega
      · next hge =>
        have hr := ih (k + 1) c b h4 (by omega) hc
        simp [Memory.wfFrom, h1, h2, h3, hr]

/-- After a byte is written, its cell reads the byte and every other cell reads as before. -/
theorem Memory.byteAt_setByte (m : List Host.Cell) : ∀ (lo c : Nat) (b : Byte) (x : Nat), Memory.wfFrom lo m = true →
    Memory.byteAt (Memory.setByte m c b) x = if x = c then b else Memory.byteAt m x := by
  induction m with
  | nil =>
    intro lo c b x _
    by_cases hb : b = Memory.unwritten <;> by_cases hx : x = c <;>
      simp [Memory.setByte, Memory.byteAt, hb, hx]
  | cons p rest ih =>
    obtain ⟨k, y⟩ := p
    intro lo c b x h
    simp only [Memory.wfFrom, Bool.and_eq_true, decide_eq_true_eq] at h
    obtain ⟨⟨⟨h1, h2⟩, h3⟩, h4⟩ := h
    unfold Memory.setByte
    split
    · next he =>
      subst he
      split
      · next hb =>
        subst hb
        rcases Nat.lt_trichotomy x c with hx | hx | hx
        · have := Memory.byteAt_below rest (c + 1) x h4 (by omega)
          have hne : x ≠ c := by omega
          simp [Memory.byteAt, this, hne, hx]
        · subst hx
          simp [Memory.byteAt_below rest (x + 1) x h4 (by omega)]
        · have hne : x ≠ c := by omega
          have hnl : ¬ x < c := by omega
          simp [Memory.byteAt, hne, hnl]
      · by_cases hx : x = c <;> simp [Memory.byteAt, hx]
    · next hne =>
      split
      · next hlt =>
        split
        · next hb =>
          subst hb
          by_cases hx : x = c
          · subst hx
            simp [Memory.byteAt, hne, hlt]
          · simp [hx]
        · by_cases hx : x = c
          · simp [Memory.byteAt, hx]
          · by_cases hxl : x < c
            · have h5 : x ≠ k := by omega
              have h6 : x < k := by omega
              simp [Memory.byteAt, hx, hxl, h5, h6]
            · simp [Memory.byteAt, hx, hxl]
      · next hge =>
        simp only [Memory.byteAt, ih (k + 1) c b x h4]
        by_cases hx : x = c
        · subst hx; simp [hne, hge]
        · simp [hx]

/-- Writing a byte inside the memory keeps the canonical form of the whole. -/
theorem Memory.wf_setByte (m : List Host.Cell) (c : Nat) (b : Byte) (h : Memory.wf m = true) (hc : c < Memory.cells) :
    Memory.wf (Memory.setByte m c b) = true :=
  Memory.wfFrom_setByte m 0 c b h (Nat.zero_le c) hc

/-- Writing a word, whatever lanes are enabled, keeps the canonical form. -/
theorem Memory.wf_setWord (m : List Host.Cell) (a : Addr) (lanes : Lanes) (w : Word) (h : Memory.wf m = true) :
    Memory.wf (Memory.setWord m a lanes w) = true := by
  have ha : a.toNat < 2 ^ 19 := a.isLt
  have h1 : 2 * a.toNat < Memory.cells := by unfold Memory.cells; omega
  have h2 : 2 * a.toNat + 1 < Memory.cells := by unfold Memory.cells; omega
  have hlow := Memory.wf_setByte m _ (lowByte w) h h1
  unfold Memory.setWord
  cases lanes.low <;> cases lanes.high <;> simp only [if_true, if_false, Bool.false_eq_true]
  · exact h
  · exact Memory.wf_setByte m _ _ h h2
  · exact hlow
  · exact Memory.wf_setByte _ _ _ hlow h2

/-- What one byte reads as after a word is written: the enabled lanes of the word hold its bytes, every other cell reads as
before. -/
theorem Memory.byteAt_setWord (m : List Host.Cell) (a : Addr) (lanes : Lanes) (w : Word) (c : Nat) (h : Memory.wf m = true) :
    Memory.byteAt (Memory.setWord m a lanes w) c =
      if lanes.high = true ∧ c = 2 * a.toNat + 1 then highByte w
      else if lanes.low = true ∧ c = 2 * a.toNat then lowByte w
      else Memory.byteAt m c := by
  have ha : a.toNat < 2 ^ 19 := a.isLt
  have h1 : 2 * a.toNat < Memory.cells := by unfold Memory.cells; omega
  have hm : Memory.wfFrom 0 m = true := h
  have hm1 : Memory.wfFrom 0 (Memory.setByte m (2 * a.toNat) (lowByte w)) = true := Memory.wf_setByte m _ _ h h1
  unfold Memory.setWord
  cases lanes.low <;> cases lanes.high <;>
    simp only [if_true, if_false, Bool.false_eq_true, false_and, true_and, Memory.byteAt_setByte _ 0 _ _ _ hm,
      Memory.byteAt_setByte _ 0 _ _ _ hm1]

end Sys2Proof.Machine
end

