-- ==== Sys2Proof/Laws/Start.lean ====
section
/-! SUPPORT. Frames of the recovery, the install and the entries into STARTING and FROZEN; the state in which a request is
executed. -/

namespace Sys2Proof.Machine

/-- What neither the recovery nor the install touches. -/
structure OuterFrame (s t : State) : Prop where
  powered : t.powered = s.powered
  pfwAsserted : t.pfwAsserted = s.pfwAsserted
  resetAsserted : t.resetAsserted = s.resetAsserted
  resetTaken : t.resetTaken = s.resetTaken
  straps : t.straps = s.straps
  loc : t.loc = s.loc
  mt : t.mt = s.mt
  mask : t.mask = s.mask
  staging : t.staging = s.staging
  memory : t.memory = s.memory
  arrivals : t.arrivals = s.arrivals
  pending : t.pending = s.pending
  eventsFit : s.events.length ≤ 16 → t.events.length ≤ 16

theorem OuterFrame.refl (s : State) : OuterFrame s s := ⟨rfl, rfl, rfl, rfl, rfl, rfl, rfl, rfl, rfl, rfl, rfl, rfl, fun h => h⟩

theorem OuterFrame.trans (s t u : State) (h1 : OuterFrame s t) (h2 : OuterFrame t u) : OuterFrame s u :=
  ⟨h2.powered.trans h1.powered, h2.pfwAsserted.trans h1.pfwAsserted, h2.resetAsserted.trans h1.resetAsserted, h2.resetTaken.trans h1.resetTaken, h2.straps.trans h1.straps, h2.loc.trans h1.loc, h2.mt.trans h1.mt, h2.mask.trans h1.mask, h2.staging.trans h1.staging, h2.memory.trans h1.memory, h2.arrivals.trans h1.arrivals, h2.pending.trans h1.pending, fun h => h2.eventsFit (h1.eventsFit h)⟩

theorem WorkFrame.outer (s t : State) (h : WorkFrame s t) : OuterFrame s t :=
  ⟨h.powered, h.pfwAsserted, h.resetAsserted, h.resetTaken, h.straps, h.loc, h.mt, h.mask, h.staging, h.memory, h.arrivals, h.pending, h.eventsFit⟩

theorem State.setRecovery_frame (s : State) (r : Recovery) : OuterFrame s (s.setRecovery r) := ⟨rfl, rfl, rfl, rfl, rfl, rfl, rfl, rfl, rfl, rfl, rfl, rfl, fun h => h⟩

theorem State.setInstall_frame (s : State) (st : InstallStream) : OuterFrame s (s.setInstall st) := ⟨rfl, rfl, rfl, rfl, rfl, rfl, rfl, rfl, rfl, rfl, rfl, rfl, fun h => h⟩

theorem post_frame (s : State) (tag code : Byte) (r : ResultCode) (data : List Byte) :
    OuterFrame s (post tag code r data s) := ⟨rfl, rfl, rfl, rfl, rfl, rfl, rfl, rfl, rfl, rfl, rfl, rfl, fun h => h⟩

theorem clearPending_frame (s : State) : OuterFrame s (clearPending s) := ⟨rfl, rfl, rfl, rfl, rfl, rfl, rfl, rfl, rfl, rfl, rfl, rfl, fun h => h⟩

theorem enterStarting_frame (s : State) (k : StartKind) : OuterFrame s (enterStarting k s) := ⟨rfl, rfl, rfl, rfl, rfl, rfl, rfl, rfl, rfl, rfl, rfl, rfl, fun h => h⟩

theorem enterFrozen_frame (s : State) : OuterFrame s (enterFrozen s) := ⟨rfl, rfl, rfl, rfl, rfl, rfl, rfl, rfl, rfl, rfl, rfl, rfl, fun h => h⟩

theorem postPending_frame (s : State) : OuterFrame s (postPending s) := by
  unfold postPending
  split
  · exact OuterFrame.refl s
  · exact OuterFrame.trans _ _ _ (post_frame s _ _ _ _) (clearPending_frame _)
  · exact OuterFrame.trans _ _ _ (post_frame s _ _ _ _) (clearPending_frame _)

theorem recordFailed_work (s : State) : WorkFrame s (recordFailed s) := by
  have step : ∀ (l : List (Fin 4)) (t : State), WorkFrame t (l.foldl (fun t d =>
      if (t.dom d).state = .failed then record (.domainFailed d (t.dom d).openEpoch) t else t) t) := by
    intro l
    induction l with
    | nil => exact WorkFrame.refl
    | cons d rest ih =>
      intro t
      simp only [List.foldl_cons]
      refine WorkFrame.trans _ _ _ ?_ (ih _)
      split
      · exact record_frame t _
      · exact WorkFrame.refl t
  exact step domainIndices s

theorem endStarting_frame (s : State) : OuterFrame s (endStarting s) := by
  have h0 : ∀ (v : State) a b c d e, OuterFrame v { v with domains := a, pool := b, freeQueue := c, slotIndex := d, retireQueue := e } :=
    fun v a b c d e => ⟨rfl, rfl, rfl, rfl, rfl, rfl, rfl, rfl, rfl, rfl, rfl, rfl, fun h => h⟩
  have h1 : ∀ (v : State) r, OuterFrame v { v with mode := .guarding, recovery := r } := fun v r => ⟨rfl, rfl, rfl, rfl, rfl, rfl, rfl, rfl, rfl, rfl, rfl, rfl, fun h => h⟩
  exact OuterFrame.trans _ _ _ (OuterFrame.trans _ _ _ (OuterFrame.trans _ _ _ (OuterFrame.trans _ _ _ (OuterFrame.trans _ _ _
    (h0 s _ _ _ _ _) (recordFailed_work _).outer) (record_frame _ _).outer) (postPending_frame _)) (h1 _ _)) (endHold_frame _).outer

theorem endUnconfigured_frame (s : State) : OuterFrame s (endUnconfigured s) := by
  have h1 : ∀ (v : State) r, OuterFrame v { v with mode := .unconfigured, recovery := r } := fun v r => ⟨rfl, rfl, rfl, rfl, rfl, rfl, rfl, rfl, rfl, rfl, rfl, rfl, fun h => h⟩
  exact OuterFrame.trans _ _ _ (OuterFrame.trans _ _ _ (OuterFrame.trans _ _ _ (record_frame s _).outer (postPending_frame _))
    (h1 _ _)) (endHold_frame _).outer

theorem unlessFrozen_frame (s t : State) (h : OuterFrame s t) : OuterFrame s (unlessFrozen s t) := by
  unfold unlessFrozen
  split
  · exact s.setRecovery_frame _
  · exact h

theorem nextRestore_frame (s : State) : OuterFrame s (nextRestore s) := by
  unfold nextRestore
  split
  · exact unlessFrozen_frame _ _ (endStarting_frame s)
  · exact s.setRecovery_frame _

theorem recoveryRestoreTakes_frame (s : State) (it : RecItem) (pos : RestorePos) (back : Bool) (data : Word) :
    OuterFrame s (recoveryRestoreTakes it pos back data s) := by
  unfold recoveryRestoreTakes
  split
  · exact s.setRecovery_frame _
  · exact OuterFrame.trans _ _ _ (s.setRecovery_frame _) (nextRestore_frame _)
  · exact OuterFrame.trans _ _ _ (OuterFrame.trans _ _ _ (s.setRecovery_frame _) (record_frame _ _).outer) (nextRestore_frame _)
  · exact OuterFrame.trans _ _ _ (OuterFrame.trans _ _ _ (s.setRecovery_frame _) (record_frame _ _).outer) (nextRestore_frame _)

theorem scanNext_frame (s : State) : OuterFrame s (scanNext s) := by
  unfold scanNext
  split
  · exact s.setRecovery_frame _
  · exact OuterFrame.trans _ _ _ (s.setRecovery_frame _) (nextRestore_frame _)

theorem scanSettles_frame (s : State) (o : SlotOutcome) : OuterFrame s (scanSettles o s) :=
  OuterFrame.trans _ _ _ (s.setRecovery_frame _) (scanNext_frame _)

theorem scanClear_frame (s : State) (j : Judgement) : OuterFrame s (scanClear j s) := s.setRecovery_frame _

theorem scanCleared_frame (s : State) (j : Judgement) : OuterFrame s (scanCleared j s) :=
  OuterFrame.trans _ _ _ (s.setRecovery_frame _) (scanSettles_frame _ _)

theorem scanClearFault_frame (s : State) (j : Judgement) : OuterFrame s (scanClearFault j s) :=
  OuterFrame.trans _ _ _ (OuterFrame.trans _ _ _ (s.setRecovery_frame _) (record_frame _ _).outer) (scanSettles_frame _ _)

theorem scanJudge_frame (s : State) (d : Fin 4) (e l c w : Word) : OuterFrame s (scanJudge d e l c w s) := by
  unfold scanJudge
  split
  · exact scanClear_frame s _
  · split
    · exact scanClear_frame s _
    · split
      · exact OuterFrame.trans _ _ _ (s.setRecovery_frame _) (scanSettles_frame _ _)
      · exact scanClear_frame s _

theorem scanTakes_frame (s : State) (pos : ScanPos) (back : Bool) (data : Word) :
    OuterFrame s (scanTakes pos back data s) := by
  unfold scanTakes
  split
  · split
    · exact scanSettles_frame s _
    · split
      · exact scanClear_frame s _
      · split
        · exact s.setRecovery_frame _
        · exact scanClear_frame s _
  · exact s.setRecovery_frame _
  · split
    · exact s.setRecovery_frame _
    · exact scanClear_frame s _
  · exact s.setRecovery_frame _
  · split
    · exact s.setRecovery_frame _
    · exact scanJudge_frame s _ _ _ _ _
  · split
    · split
      · exact scanCleared_frame s _
      · exact scanClearFault_frame s _
    · split
      · exact s.setRecovery_frame _
      · exact scanCleared_frame s _

theorem loadAdopts_frame (s : State) (c : Chosen) : OuterFrame s (loadAdopts c s) := by
  have h0 : ∀ (v : State) a b c d e, OuterFrame v { v with layout := a, activeCopy := b, activeSequence := c, geometry := d, recovery := e } :=
    fun v a b c d e => ⟨rfl, rfl, rfl, rfl, rfl, rfl, rfl, rfl, rfl, rfl, rfl, rfl, fun h => h⟩
  exact unlessFrozen_frame _ _ (OuterFrame.trans _ _ _ (h0 s _ _ _ _ _) (scanNext_frame _))

theorem loadChooses_frame (s : State) (ws : List Word) : OuterFrame s (loadChooses ws s) := by
  unfold loadChooses
  split
  · exact unlessFrozen_frame _ _ (endUnconfigured_frame s)
  · split
    · exact OuterFrame.trans _ _ _ (s.setRecovery_frame _) (loadAdopts_frame _ _)
    · exact s.setRecovery_frame _

theorem loadCopyTakes_frame (s : State) (ws : List Word) (data : Word) : OuterFrame s (loadCopyTakes ws data s) := by
  unfold loadCopyTakes
  split
  · exact s.setRecovery_frame _
  · exact loadChooses_frame s _

theorem loadEpochTakes_frame (s : State) (ds : List (Fin 4)) (data : Word) : OuterFrame s (loadEpochTakes ds data s) := by
  unfold loadEpochTakes
  split
  · exact OuterFrame.refl s
  · dsimp only
    split
    · exact OuterFrame.trans _ _ _ (s.setRecovery_frame _) (loadAdopts_frame _ _)
    · exact s.setRecovery_frame _

/-- Whatever word the recovery takes, it leaves the pins, the mask, the Staging Tables, the memory and the queue alone. -/
theorem recoveryTakes_frame (s : State) (data : Word) : OuterFrame s (recoveryTakes data s) := by
  unfold recoveryTakes
  split
  · exact OuterFrame.refl s
  · exact loadCopyTakes_frame s _ _
  · exact loadEpochTakes_frame s _ _
  · exact scanTakes_frame s _ _ _
  · exact recoveryRestoreTakes_frame s _ _ _ _

theorem postInstallResult_frame (s : State) (r : ResultCode) : OuterFrame s (postInstallResult r s) := by
  unfold postInstallResult
  split
  · exact OuterFrame.trans _ _ _ (post_frame s _ _ _ _) (clearPending_frame _)
  · exact OuterFrame.refl s

theorem adopt_frame (s : State) (st : InstallStream) : OuterFrame s (adopt st s) := by
  have h0 : ∀ (v : State) a b c d e f g h i, OuterFrame v { v with layout := a, geometry := b, pool := c, freeQueue := d, slotIndex := e, retireQueue := f, domains := g, activeCopy := h, activeSequence := i } :=
    fun v a b c d e f g h i => ⟨rfl, rfl, rfl, rfl, rfl, rfl, rfl, rfl, rfl, rfl, rfl, rfl, fun h => h⟩
  have h1 : ∀ (v : State) m, OuterFrame v { v with mode := m, install := none } := fun v m => ⟨rfl, rfl, rfl, rfl, rfl, rfl, rfl, rfl, rfl, rfl, rfl, rfl, fun h => h⟩
  exact OuterFrame.trans _ _ _ (OuterFrame.trans _ _ _ (OuterFrame.trans _ _ _ (OuterFrame.trans _ _ _
    (h0 s _ _ _ _ _ _ _ _ _) (record_frame _ _).outer) (postInstallResult_frame _ _)) (h1 _ _)) (endHold_frame _).outer

theorem installAdvance_frame (s : State) (st : InstallStream) : OuterFrame s (installAdvance st s) := by
  unfold installAdvance
  split
  · exact s.setInstall_frame _
  · split
    · exact s.setInstall_frame _
    · unfold installBeginsEpochs
      split
      · exact adopt_frame s _
      · exact s.setInstall_frame _
  · exact OuterFrame.refl s

theorem installFault_frame (s : State) (st : InstallStream) : OuterFrame s (installFault st s) :=
  OuterFrame.trans _ _ _ (OuterFrame.trans _ _ _ (OuterFrame.trans _ _ _ (record_frame s _).outer (record_frame _ _).outer)
    (postInstallResult_frame _ _)) (enterStarting_frame _ _)

/-- Whatever word the install takes, it leaves the pins, the mask, the Staging Tables, the memory and the queue alone. -/
theorem installTakes_frame (s : State) (data : Word) : OuterFrame s (installTakes data s) := by
  unfold installTakes
  split
  · exact OuterFrame.refl s
  · split
    · exact OuterFrame.refl s
    · dsimp only
      split
      · exact adopt_frame s _
      · exact s.setInstall_frame _
    · split
      · split
        · exact installAdvance_frame s _
        · exact installFault_frame s _
      · split
        · exact s.setInstall_frame _
        · exact installAdvance_frame s _

/-- Handing a word to a claimant leaves the pins, the mask, the Staging Tables, the memory and the queue alone. -/
theorem deliver_frame (s : State) (c : Claimant) (data : Word) : OuterFrame s (deliver c data s) := by
  cases c with
  | host => exact (hostTakes_frame s data).outer
  | copy => exact (copyTakes_frame s data).outer
  | commit => exact (commitTakes_frame s data).outer
  | restore d => exact (restoreTakes_frame s d data).outer
  | install => exact installTakes_frame s data
  | retire => exact (retireTakes_frame s data).outer
  | recovery => exact recoveryTakes_frame s data

/-! ### In FROZEN -/

/-- Only the recovery record and the events differ. -/
def RecoveryOnly (s t : State) : Prop := ∃ r es, t = { s with recovery := r, events := es }

theorem RecoveryOnly.set {s t : State} (h : RecoveryOnly s t) (r : Recovery) : RecoveryOnly s (t.setRecovery r) := by
  obtain ⟨r', es, rfl⟩ := h
  exact ⟨r, es, rfl⟩

theorem RecoveryOnly.refl (s : State) : RecoveryOnly s s := ⟨s.recovery, s.events, rfl⟩

theorem RecoveryOnly.recorded {s t : State} (h : RecoveryOnly s t) (e : Event) : RecoveryOnly s (record e t) := by
  obtain ⟨r', es, rfl⟩ := h
  unfold record
  split
  · exact ⟨r', _, rfl⟩
  · exact ⟨r', es, rfl⟩

theorem RecoveryOnly.mode {s t : State} (h : RecoveryOnly s t) : t.mode = s.mode := by
  obtain ⟨r', es, rfl⟩ := h
  rfl

theorem unlessFrozen_frozen {s t : State} (u : State) (h : RecoveryOnly s t) (hf : s.mode = .frozen) :
    RecoveryOnly s (unlessFrozen t u) := by
  unfold unlessFrozen
  rw [if_pos (h.mode.trans hf)]
  exact h.set _

theorem nextRestore_frozen {s t : State} (h : RecoveryOnly s t) (hf : s.mode = .frozen) : RecoveryOnly s (nextRestore t) := by
  unfold nextRestore
  split
  · exact unlessFrozen_frozen _ h hf
  · exact h.set _

theorem scanSettles_frozen {s t : State} (o : SlotOutcome) (h : RecoveryOnly s t) (hf : s.mode = .frozen) :
    RecoveryOnly s (scanSettles o t) := by
  unfold scanSettles scanNext
  split
  · exact (h.set _).set _
  · exact nextRestore_frozen ((h.set _).set _) hf

/-- In FROZEN the word the recovery takes changes its record alone, and the events it would record (R130, log 17). -/
theorem recoveryTakes_frozen (s : State) (data : Word) (hf : s.mode = .frozen) : RecoveryOnly s (recoveryTakes data s) := by
  have h := RecoveryOnly.refl s
  unfold recoveryTakes
  split
  · exact h
  · unfold loadCopyTakes loadChooses
    split
    · exact h.set _
    · split
      · exact unlessFrozen_frozen _ h hf
      · split
        · exact unlessFrozen_frozen _ (h.set _) hf
        · exact h.set _
  · unfold loadEpochTakes
    split
    · exact h
    · dsimp only
      split
      · exact unlessFrozen_frozen _ (h.set _) hf
      · exact h.set _
  · unfold scanTakes
    split
    · split
      · exact scanSettles_frozen _ h hf
      · split
        · exact h.set _
        · split <;> exact h.set _
    · exact h.set _
    · split <;> exact h.set _
    · exact h.set _
    · split
      · exact h.set _
      · unfold scanJudge
        split
        · exact h.set _
        · split
          · exact h.set _
          · split
            · exact scanSettles_frozen _ (h.set _) hf
            · exact h.set _
    · split
      · split
        · exact scanSettles_frozen _ (h.set _) hf
        · exact scanSettles_frozen _ ((h.set _).recorded _) hf
      · split
        · exact h.set _
        · exact scanSettles_frozen _ (h.set _) hf
  · unfold recoveryRestoreTakes
    split
    · exact h.set _
    · exact nextRestore_frozen (h.set _) hf
    · exact nextRestore_frozen ((h.set _).recorded _) hf
    · exact nextRestore_frozen ((h.set _).recorded _) hf

/-- What the word of an access that ends in FROZEN can do: what the host's word does, or a step of the claimant's own record
(R104, R130). -/
theorem deliverFrozen_cases (s : State) (c : Claimant) (data : Word) (hf : s.mode = .frozen) :
    (c = .host ∧ deliverFrozen c data s = hostTakes data s)
    ∨ (∃ k, deliverFrozen c data s = { s with copy := k })
    ∨ (∃ k, deliverFrozen c data s = { s with commit := k })
    ∨ (∃ d st, deliverFrozen c data s = s.setDom d { s.dom d with stream := st })
    ∨ (∃ i, deliverFrozen c data s = { s with install := i })
    ∨ (∃ b, deliverFrozen c data s = { s with retireBack := b })
    ∨ (c = .recovery ∧ ∃ r, deliverFrozen c data s = { s with recovery := r }) := by
  cases c with
  | host => exact Or.inl ⟨rfl, rfl⟩
  | copy =>
    unfold deliverFrozen
    dsimp only
    split
    · exact Or.inr (Or.inl ⟨s.copy, rfl⟩)
    · split
      · exact Or.inr (Or.inl ⟨_, rfl⟩)
      · exact Or.inr (Or.inl ⟨s.copy, rfl⟩)
  | commit =>
    unfold deliverFrozen
    dsimp only
    split
    · exact Or.inr (Or.inr (Or.inl ⟨s.commit, rfl⟩))
    · split
      · exact Or.inr (Or.inr (Or.inl ⟨_, rfl⟩))
      · exact Or.inr (Or.inr (Or.inl ⟨s.commit, rfl⟩))
  | restore d =>
    unfold deliverFrozen
    dsimp only
    split
    · exact Or.inr (Or.inl ⟨s.copy, rfl⟩)
    · split
      · exact Or.inr (Or.inl ⟨s.copy, rfl⟩)
      · split
        · exact Or.inr (Or.inr (Or.inr (Or.inl ⟨_, _, rfl⟩)))
        · exact Or.inr (Or.inl ⟨s.copy, rfl⟩)
  | install =>
    unfold deliverFrozen
    dsimp only
    split
    · exact Or.inr (Or.inl ⟨s.copy, rfl⟩)
    · exact Or.inr (Or.inr (Or.inr (Or.inr (Or.inl ⟨_, rfl⟩))))
  | retire =>
    unfold deliverFrozen
    dsimp only
    split
    · exact Or.inr (Or.inr (Or.inr (Or.inr (Or.inr (Or.inl ⟨_, rfl⟩)))))
    · exact Or.inr (Or.inl ⟨s.copy, rfl⟩)
  | recovery =>
    obtain ⟨r, es, h⟩ := recoveryTakes_frozen s data hf
    refine Or.inr (Or.inr (Or.inr (Or.inr (Or.inr (Or.inr ⟨rfl, r, ?_⟩)))))
    unfold deliverFrozen
    rw [h]

theorem deliverFrozen_frame (s : State) (c : Claimant) (data : Word) (hf : s.mode = .frozen) :
    OuterFrame s (deliverFrozen c data s) := by
  rcases deliverFrozen_cases s c data hf with ⟨_, h⟩ | ⟨_, h⟩ | ⟨_, h⟩ | ⟨_, _, h⟩ | ⟨_, h⟩ | ⟨_, h⟩ | ⟨_, _, h⟩ <;> rw [h]
  · exact (hostTakes_frame s data).outer
  all_goals exact ⟨rfl, rfl, rfl, rfl, rfl, rfl, rfl, rfl, rfl, rfl, rfl, rfl, fun h => h⟩

/-- Whoever takes a finished access's word leaves the pins, the mask, the Staging Tables, the memory and the queue alone. -/
theorem handOver_frame (s : State) (a : Access) (data : Word) : OuterFrame s (handOver a data s) := by
  unfold handOver
  split
  · exact OuterFrame.refl s
  · split
    · next hf => exact deliverFrozen_frame s _ _ hf
    · exact deliver_frame s _ _

/-- The memory after the access in progress completes is what the access left, whatever its claimant does next (R103). -/
theorem completeAccess_memory (flaw : Option Word) (a : Access) (s : State) :
    (completeAccess flaw a s).memory = memoryAfter flaw s.memory a := by
  unfold completeAccess
  rw [(settleStep_frame _ _).memory, (handOver_frame _ _ _).memory]
  rfl

/-! ### Requests -/

/-- A request command executes its request in the state its frame leaves (R136). -/
theorem carryRequest_listening (bytes : List Byte) (body : State → State) (s : State) (h : s.Listening)
    (hb : bytes.length ≤ 29) : carryRequest bytes body s = body (s.requested bytes) := by
  obtain ⟨h1, h2, h3⟩ := h
  have ht : bytes.take 29 = bytes := List.take_of_length_le hb
  have hd : decide (29 < bytes.length) = false := by simp; omega
  by_cases hr : s.link.receiving = true
  · simp [carryRequest, selectFalls, selectRises, closeFrame, State.requested, h1, h3, hr, ht, hd]
  · simp [carryRequest, selectFalls, selectRises, beginFrame, closeFrame, State.requested, h1, h2, h3, hr, ht, hd]

/-- A post in the state of an executed request answers it. -/
theorem post_requested (bytes : List Byte) (tag code : Byte) (r : ResultCode) (data : List Byte) (s : State)
    (ht : bytes.getD 1 0 = tag) (hc : bytes.getD 0 0 = code) :
    post tag code r data (s.requested bytes) = s.answered bytes r data := by
  subst ht; subst hc; rfl

end Sys2Proof.Machine
end

