-- ==== Sys2Proof/Laws/Requests.lean ====
section
/-! SUPPORT. What a request can do, said once: every request's next state is one of the constructors of `RequestEffect`. -/

namespace Sys2Proof.Machine

/-- What executing a request can do to the state. -/
inductive RequestEffect (s : State) : State → Prop where
  /-- NOP. -/
  | nothing : RequestEffect s s
  /-- A result alone is posted. -/
  | posted (tag code : Byte) (r : ResultCode) (data : List Byte) (h : data.length ≤ 24) :
    RequestEffect s (post tag code r data s)
  /-- A STAGE request writes the Staging Tables. -/
  | staged (tag code : Byte) (l : Layout) (h : s.layout.InRange → s.staging.InRange → l.InRange) :
    RequestEffect s (post tag code .ok [] { s with staging := l })
  /-- RESUME makes a FENCED domain IDLE. -/
  | resumed (tag : Byte) (d : Fin 4) (h : (s.dom d).state = .fenced) :
    RequestEffect s (post tag 0x21 .ok [] (s.setDom d { s.dom d with state := .idle }))
  /-- SET_MODE changes between GUARDING and BYPASS. -/
  | moded (tag : Byte) (m : Mode) (h : s.mode = .guarding ∨ s.mode = .bypass) (hm : m = .guarding ∨ m = .bypass) :
    RequestEffect s (post tag 0x22 .ok [] { s with mode := m })
  /-- TAKE_EVENT removes the oldest record. -/
  | taken (tag : Byte) (r : EventRec) (rest : List EventRec) (h : s.events = r :: rest) :
    RequestEffect s (post tag 0x30 .ok r.bytes { s with events := rest })
  /-- SET_EVENTS replaces the mask. -/
  | masked (tag : Byte) (mask : Word) : RequestEffect s (post tag 0x31 .ok (bytes2 mask.toNat) { s with mask := mask.setWidth 9 })
  /-- INSTALL is accepted. -/
  | installed (tag : Byte) (h : s.mode.isBusy = false) (hv : validate s.logStart s.staging = none) (hq : s.quiet = true) :
    RequestEffect s (settleStep false (acceptInstall tag s))
  /-- ABORT aborts an OPEN update. -/
  | aborted (tag : Byte) (d : Fin 4) (data : List Byte) (h : (s.dom d).state = .opened) (hd : data.length ≤ 24) :
    RequestEffect s (settleStep false (abortUpdate d .requested (post tag 0x20 .ok data s)))
  /-- RESTART begins a STARTING. -/
  | restarted (tag : Byte) (h : s.mode.isBusy = false) :
    RequestEffect s
      (settleStep false (enterStarting .restart { s with link := { s.link with pendingOp := .restart tag } }))

/-- A request refused BUSY posts alone; otherwise it does what it does when taken. -/
theorem unlessBusy_effect (tag code : Byte) (s t : State) (h : s.mode.isBusy = false → RequestEffect s t) :
    RequestEffect s (unlessBusy tag code s t) := by
  unfold unlessBusy
  split
  · exact .posted _ _ _ _ (by simp)
  · next hb => exact h (by simpa using hb)

/-- A request refused BUSY or WRONG_MODE posts alone; taken, the mode is GUARDING or BYPASS. -/
theorem unlessUnguarded_effect (tag code : Byte) (s t : State)
    (h : (s.mode = .guarding ∨ s.mode = .bypass) → RequestEffect s t) : RequestEffect s (unlessUnguarded tag code s t) := by
  unfold unlessUnguarded
  refine unlessBusy_effect _ _ _ _ fun hb => ?_
  split
  · exact .posted _ _ _ _ (by simp)
  · next hu =>
    apply h
    revert hb hu
    cases s.mode <;> simp [Mode.isBusy]

/-- Every event record fits the data of a result. -/
theorem EventRec.bytes_length (r : EventRec) : r.bytes.length ≤ 24 := by
  obtain ⟨e, l⟩ := r
  cases e <;> simp [EventRec.bytes, Event.fieldBytes, bytes2, bytes3]

theorem reqGetStatus_effect (tag : Byte) (s : State) : RequestEffect s (reqGetStatus tag s) :=
  .posted _ _ _ _ (by simp [domainIndices, bytes2])

/-- The data of GET_DOMAIN fits the record (R182). -/
theorem domainData_length (s : State) (d : Fin 4) (p : Nat) : (domainData s d p).length ≤ 24 := by
  simp [domainData, DomainCfg.bytes, bytes2, bytes3]
  omega

theorem reqGetDomain_effect (tag d p : Byte) (s : State) : RequestEffect s (reqGetDomain tag d p s) := by
  unfold reqGetDomain
  split
  · exact .posted _ _ _ _ (by simp)
  · split
    · exact .posted _ _ _ _ (domainData_length _ _ _)
    · exact .posted _ _ _ _ (by simp)

theorem reqGetSlot_effect (tag n : Byte) (s : State) : RequestEffect s (reqGetSlot tag n s) := by
  unfold reqGetSlot
  split
  · exact .posted _ _ _ _ (by simp [bytes2, bytes3])
  · exact .posted _ _ _ _ (by simp)

theorem reqGetRegion_effect (tag r : Byte) (s : State) : RequestEffect s (reqGetRegion tag r s) := by
  unfold reqGetRegion
  split
  · exact .posted _ _ _ _ (by simp [RegionEntry.bytes, bytes2, bytes3])
  · exact .posted _ _ _ _ (by simp)

theorem reqGetStagedRegion_effect (tag i : Byte) (s : State) : RequestEffect s (reqGetStagedRegion tag i s) := by
  unfold reqGetStagedRegion
  split
  · exact .posted _ _ _ _ (by simp [RegionEntry.bytes, bytes2, bytes3])
  · exact .posted _ _ _ _ (by simp)

theorem reqGetStagedDomain_effect (tag i : Byte) (s : State) : RequestEffect s (reqGetStagedDomain tag i s) := by
  unfold reqGetStagedDomain
  split
  · exact .posted _ _ _ _ (by simp [DomainCfg.bytes, bytes2, bytes3])
  · exact .posted _ _ _ _ (by simp)

theorem reqGetStagedLog_effect (tag i : Byte) (s : State) : RequestEffect s (reqGetStagedLog tag i s) := by
  unfold reqGetStagedLog
  split
  · exact .posted _ _ _ _ (by simp [bytes3])
  · exact .posted _ _ _ _ (by simp)

theorem reqGetStaged_effect (tag k i : Byte) (s : State) : RequestEffect s (reqGetStaged tag k i s) := by
  unfold reqGetStaged
  split
  · exact reqGetStagedRegion_effect tag i s
  · split
    · exact reqGetStagedDomain_effect tag i s
    · split
      · exact reqGetStagedLog_effect tag i s
      · exact .posted _ _ _ _ (by simp)

theorem reqStageLoad_effect (tag : Byte) (s : State) : RequestEffect s (reqStageLoad tag s) :=
  unlessBusy_effect _ _ _ _ fun _ => .staged _ _ _ fun h _ => h

/-- A staged region is in range (R146). -/
theorem stagedRegion_inRange (base : BitVec 24) (flags size : Byte) (count : Word) (e : RegionEntry)
    (h : stagedRegion base flags size count = some e) : 1 ≤ e.size ∧ e.size ≤ 64 ∧ 1 ≤ e.count ∧ e.count ≤ 4096 := by
  unfold stagedRegion at h
  split at h
  · next hc =>
    simp only [Option.map_eq_some_iff] at h
    obtain ⟨k, _, rfl⟩ := h
    exact ⟨hc.2.1, hc.2.2.1, hc.2.2.2.1, hc.2.2.2.2⟩
  · simp at h

/-- A staged domain is in range (R146). -/
theorem stagedDomain_inRange (flags quota : Byte) (deadline : Word) (commit : BitVec 24) (c : DomainCfg)
    (h : stagedDomain flags quota deadline commit = some c) : 1 ≤ c.quota ∧ c.quota ≤ 128 := by
  unfold stagedDomain at h
  split at h
  · next hc => simp only [Option.some.injEq] at h; subst h; exact ⟨hc.1, hc.2.1⟩
  · simp at h

/-- Replacing an entry by one in range keeps a layout in range. -/
theorem Layout.inRange_setRegion (l : Layout) (i : Fin 16) (e : RegionEntry) (h : l.InRange)
    (he : 1 ≤ e.size ∧ e.size ≤ 64 ∧ 1 ≤ e.count ∧ e.count ≤ 4096) : ({ l with regions := l.regions.set i e } : Layout).InRange := by
  refine ⟨fun r => ?_, h.2⟩
  by_cases hr : i = r
  · subst hr; simpa using he
  · have : (l.regions.set i e)[r] = l.regions[r] := by
      simp only [Fin.getElem_fin]
      exact Vector.getElem_set_ne _ _ (fun hc => hr (Fin.ext hc))
    simpa [this] using h.1 r

/-- Replacing a domain by one in range keeps a layout in range. -/
theorem Layout.inRange_setDomain (l : Layout) (i : Fin 4) (c : DomainCfg) (h : l.InRange)
    (hc : 1 ≤ c.quota ∧ c.quota ≤ 128) : ({ l with domains := l.domains.set i c } : Layout).InRange := by
  refine ⟨h.1, fun d => ?_⟩
  by_cases hd : i = d
  · subst hd; simpa using hc
  · have : (l.domains.set i c)[d] = l.domains[d] := by
      simp only [Fin.getElem_fin]
      exact Vector.getElem_set_ne _ _ (fun hc => hd (Fin.ext hc))
    simpa [this] using h.2 d

theorem reqStageRegion_effect (tag r : Byte) (base : BitVec 24) (flags size : Byte) (count : Word) (s : State) :
    RequestEffect s (reqStageRegion tag r base flags size count s) := by
  refine unlessBusy_effect _ _ _ _ fun _ => ?_
  split
  · exact .posted _ _ _ _ (by simp)
  · split
    · exact .posted _ _ _ _ (by simp)
    · next e he =>
      exact .staged _ _ _ fun _ h => Layout.inRange_setRegion _ _ _ h (stagedRegion_inRange _ _ _ _ _ he)

theorem reqStageDomain_effect (tag d flags quota : Byte) (deadline : Word) (commit : BitVec 24) (s : State) :
    RequestEffect s (reqStageDomain tag d flags quota deadline commit s) := by
  refine unlessBusy_effect _ _ _ _ fun _ => ?_
  split
  · exact .posted _ _ _ _ (by simp)
  · split
    · exact .posted _ _ _ _ (by simp)
    · next c hc =>
      exact .staged _ _ _ fun _ h => Layout.inRange_setDomain _ _ _ h (stagedDomain_inRange _ _ _ _ _ hc)

theorem reqStageLog_effect (tag : Byte) (len : BitVec 24) (verify : Byte) (s : State) :
    RequestEffect s (reqStageLog tag len verify s) := by
  refine unlessBusy_effect _ _ _ _ fun _ => ?_
  split
  · exact .staged _ _ _ fun _ h => h
  · exact .posted _ _ _ _ (by simp)

theorem reqInstall_effect (tag : Byte) (s : State) : RequestEffect s (reqInstall tag s) := by
  refine unlessBusy_effect _ _ _ _ fun hb => ?_
  split
  · next hq =>
    split
    · exact .posted _ _ _ _ (by simp [invalidConfigData])
    · next hv => exact .installed tag hb hv hq
  · exact .posted _ _ _ _ (by simp)

theorem reqAbort_effect (tag d : Byte) (s : State) : RequestEffect s (reqAbort tag d s) := by
  refine unlessUnguarded_effect _ _ _ _ fun _ => ?_
  split
  · exact .posted _ _ _ _ (by simp)
  · split
    · next i _ _ h => exact .aborted tag i _ h (by simp [bytes2])
    all_goals exact .posted _ _ _ _ (by simp)

theorem reqResume_effect (tag d : Byte) (s : State) : RequestEffect s (reqResume tag d s) := by
  refine unlessUnguarded_effect _ _ _ _ fun _ => ?_
  split
  · exact .posted _ _ _ _ (by simp)
  · split
    · next i _ _ h => exact .resumed tag i h
    all_goals exact .posted _ _ _ _ (by simp)

theorem reqSetBypass_effect (tag : Byte) (s : State) : RequestEffect s (reqSetBypass tag s) := by
  refine unlessUnguarded_effect _ _ _ _ fun hm => ?_
  split
  · exact .posted _ _ _ _ (by simp)
  · split
    · exact .moded tag _ hm (Or.inr rfl)
    · exact .posted _ _ _ _ (by simp)

theorem reqSetGuarding_effect (tag : Byte) (s : State) : RequestEffect s (reqSetGuarding tag s) := by
  refine unlessUnguarded_effect _ _ _ _ fun hm => ?_
  split
  · exact .posted _ _ _ _ (by simp)
  · split
    · exact .moded tag _ hm (Or.inl rfl)
    · exact .posted _ _ _ _ (by simp)

theorem reqSetMode_effect (tag m : Byte) (s : State) : RequestEffect s (reqSetMode tag m s) := by
  unfold reqSetMode
  split
  · exact reqSetGuarding_effect tag s
  · split
    · exact reqSetBypass_effect tag s
    · exact unlessUnguarded_effect _ _ _ _ fun _ => .posted _ _ _ _ (by simp)

theorem reqTakeEvent_effect (tag : Byte) (s : State) : RequestEffect s (reqTakeEvent tag s) := by
  unfold reqTakeEvent
  split
  · exact .posted _ _ _ _ (by simp)
  · next r rest h => exact .taken tag r rest h

theorem reqSetEvents_effect (tag : Byte) (mask : Word) (s : State) : RequestEffect s (reqSetEvents tag mask s) := by
  refine unlessBusy_effect _ _ _ _ fun _ => ?_
  split
  · exact .masked tag mask
  · exact .posted _ _ _ _ (by simp)

theorem reqRestart_effect (tag : Byte) (s : State) : RequestEffect s (reqRestart tag s) :=
  unlessBusy_effect _ _ _ _ fun hb => .restarted tag hb

/-- Whatever the bytes of a frame are, executing them is one of the effects. -/
theorem execute_effect (bs : List Byte) (s : State) : RequestEffect s (execute bs s) := by
  unfold execute
  dsimp only
  split
  · exact reqGetStatus_effect _ s
  · exact reqGetDomain_effect _ _ _ s
  · exact reqGetSlot_effect _ _ s
  · exact reqGetRegion_effect _ _ s
  · exact reqGetStaged_effect _ _ _ s
  · exact reqStageLoad_effect _ s
  · exact reqStageRegion_effect _ _ _ _ _ _ s
  · exact reqStageDomain_effect _ _ _ _ _ _ s
  · exact reqStageLog_effect _ _ _ s
  · exact reqInstall_effect _ s
  · exact reqAbort_effect _ _ s
  · exact reqResume_effect _ _ s
  · exact reqSetMode_effect _ _ s
  · exact reqTakeEvent_effect _ s
  · exact reqSetEvents_effect _ _ s
  · exact reqRestart_effect _ s
  · exact .nothing

/-- Judging a frame posts a refusal or executes its request. -/
theorem judgeFrame_effect (bs : List Byte) (extra : Nat) (s : State) : RequestEffect s (judgeFrame bs extra s) := by
  unfold judgeFrame
  split
  · exact .posted _ _ _ _ (by simp)
  · split
    · exact .posted _ _ _ _ (by simp)
    · split
      · exact .posted _ _ _ _ (by simp)
      · exact execute_effect _ s

end Sys2Proof.Machine
end

