-- ==== Sys2Proof/Laws/Step.lean ====
section
/-! SUPPORT. What a command can do, said once: every command's next state is one of the constructors of `CommandEffect`. -/

namespace Sys2Proof.Machine

/-- RESET# falls: already asserted; FROZEN; in SETTLE; or taken (R119, R128, R130). -/
theorem resetFalls_cases (s : State) :
    (s.resetAsserted = true ∧ resetFalls s = s)
    ∨ (s.resetAsserted = false ∧ s.mode = .frozen ∧ resetFalls s = { s with resetAsserted := true })
    ∨ (s.resetAsserted = false ∧ s.inSettle = true
        ∧ resetFalls s = resetClears { s with resetAsserted := true, resetTaken := true })
    ∨ (s.resetAsserted = false ∧ s.mode ≠ .frozen ∧ s.inSettle = false
        ∧ resetFalls s = takeReset { s with resetAsserted := true }) := by
  unfold resetFalls
  by_cases h1 : s.resetAsserted = true <;> by_cases h2 : s.mode = .frozen <;> by_cases h3 : s.inSettle = true <;>
    simp_all [State.inSettle]

/-- RESET# rises: a step's end, or nothing. -/
theorem resetRises_cases (s : State) :
    (s.resetAsserted = true ∧ resetRises s = settleStep false { s with resetAsserted := false, resetTaken := false })
    ∨ (s.resetAsserted = false ∧ resetRises s = s) := by
  unfold resetRises
  by_cases h1 : s.resetAsserted = true <;> simp_all

/-- PFW# falls: already asserted; in SETTLE; or FROZEN is entered (R119, R130). -/
theorem pfwFalls_cases (s : State) :
    (s.pfwAsserted = true ∧ pfwFalls s = s)
    ∨ (s.pfwAsserted = false ∧ s.inSettle = true
        ∧ pfwFalls s = { s with pfwAsserted := true, recovery := { s.recovery with settle := 0 } })
    ∨ (s.pfwAsserted = false ∧ s.inSettle = false ∧ pfwFalls s = enterFrozen { s with pfwAsserted := true }) := by
  unfold pfwFalls
  by_cases h1 : s.pfwAsserted = true <;> by_cases h3 : s.inSettle = true <;> simp_all [State.inSettle]

/-- PFW# rises: not asserted; not FROZEN; a RESET start; or a warm restart (R131). -/
theorem pfwRises_cases (s : State) :
    (s.pfwAsserted = false ∧ pfwRises s = s)
    ∨ (s.pfwAsserted = true ∧ s.mode ≠ .frozen ∧ pfwRises s = { s with pfwAsserted := false })
    ∨ (s.pfwAsserted = true ∧ s.mode = .frozen ∧ s.resetAsserted = true
        ∧ pfwRises s = settleStep false (takeReset { s with pfwAsserted := false }))
    ∨ (s.pfwAsserted = true ∧ s.mode = .frozen ∧ s.resetAsserted = false
        ∧ pfwRises s = settleStep false (enterStarting .warm { s with pfwAsserted := false })) := by
  unfold pfwRises
  by_cases h1 : s.pfwAsserted = true <;> by_cases h2 : s.mode = .frozen <;> by_cases h3 : s.resetAsserted = true <;>
    simp_all

/-- The state in which a frame's end is judged: what the frame's beginning, if it was none, and its end do to the link. -/
def LinkOnly (s u : State) : Prop :=
  ∃ l : Link, u = { s with link := l } ∧ l.result = s.link.result ∧ l.pendingOp = s.link.pendingOp
    ∧ (l.received.length ≤ 29 ∨ l.received = s.link.received)

/-- What a command can do to the state. -/
inductive CommandEffect (c : Instr) (s : State) : State → Prop where
  /-- Nothing. -/
  | same : CommandEffect c s s
  /-- POWER_UP. -/
  | poweredUp (straps : Straps) (pfw reset : Bool) (hc : c = .powerUp straps pfw reset) :
    CommandEffect c s (poweredUp straps pfw reset s)
  /-- SUPPLY_LOSS. -/
  | supplyLost (hc : c = .supplyLoss) : CommandEffect c s (supplyLost s)
  /-- A tick. -/
  | ticked : CommandEffect c s (settleStep false (tickBody s))
  /-- RESET# falls. -/
  | resetFell (straps : Straps) (hc : c = .resetAssert straps) : CommandEffect c s (resetFalls (showStraps straps s))
  /-- RESET# rises. -/
  | resetRose (straps : Straps) (hc : c = .resetRelease straps) : CommandEffect c s (resetRises (showStraps straps s))
  /-- PFW# falls. -/
  | pfwFell (straps : Straps) (hc : c = .pfwAssert straps) : CommandEffect c s (pfwFalls (showStraps straps s))
  /-- PFW# rises. -/
  | pfwRose (straps : Straps) (hc : c = .pfwRelease straps) : CommandEffect c s (pfwRises (showStraps straps s))
  /-- A cycle on the host bus. -/
  | cycled (b : BusCycle) : CommandEffect c s (busCycle b s)
  /-- The host ends its cycle. -/
  | cycleEnded (hc : c = .hostCycleEnd) : CommandEffect c s (endCycle s)
  /-- The access in progress completes. -/
  | completed (flaw : Option Word) (a : Access) (ha : s.memPort.access = some a) (hc : completionFlaw c = some flaw) :
    CommandEffect c s (completeAccess flaw a s)
  /-- The frame state changes and nothing else. -/
  | framed (u : State) (h : LinkOnly s u) : CommandEffect c s u
  /-- A frame ends and its request is judged. -/
  | requested (u t : State) (h : LinkOnly s u) (ht : RequestEffect u t) : CommandEffect c s t

theorem completeWhen_effect (c : Instr) (s : State) (p : Access → Bool) (flaw : Option Word)
    (hc : completionFlaw c = some flaw) : CommandEffect c s (completeWhen p flaw s) := by
  unfold completeWhen
  split
  · next a ha =>
    split
    · exact .completed flaw a ha hc
    · exact .same
  · exact .same

theorem selectFalls_linkOnly (s : State) : LinkOnly s (selectFalls s) := by
  unfold selectFalls
  split
  · exact ⟨s.link, rfl, rfl, rfl, Or.inr rfl⟩
  · split
    · exact ⟨_, rfl, rfl, rfl, Or.inr rfl⟩
    · exact ⟨_, rfl, rfl, rfl, Or.inl (by simp)⟩

theorem LinkOnly.trans (s t u : State) (h1 : LinkOnly s t) (h2 : LinkOnly t u) : LinkOnly s u := by
  obtain ⟨l, rfl, a, b, c⟩ := h1
  obtain ⟨l', rfl, a', b', c'⟩ := h2
  refine ⟨l', rfl, a'.trans a, b'.trans b, ?_⟩
  rcases c' with h | h
  · exact Or.inl h
  · rcases c with h' | h'
    · left; rw [h]; exact h'
    · right; rw [h]; exact h'

theorem selectRises_effect (c : Instr) (s u : State) (h : LinkOnly s u) (bytes : List Byte) (body : State → State)
    (hb : ∀ v, RequestEffect v (body v)) : CommandEffect c s (selectRises bytes body u) := by
  unfold selectRises
  split
  · split
    · exact .framed _ (LinkOnly.trans _ _ _ h ⟨_, rfl, rfl, rfl, Or.inr rfl⟩)
    · split
      · refine .requested (closeFrame bytes u) _ (LinkOnly.trans _ _ _ h ⟨_, rfl, rfl, rfl, Or.inl ?_⟩) (hb _)
        simp
      · exact .framed _ h
  · exact .framed _ h

theorem carryRequest_effect (c : Instr) (s : State) (bytes : List Byte) (body : State → State)
    (hb : ∀ v, RequestEffect v (body v)) : CommandEffect c s (carryRequest bytes body s) :=
  selectRises_effect c s _ (selectFalls_linkOnly s) bytes body hb

theorem answer_effect (c : Instr) (s : State) (f : State → State) (h : CommandEffect c s (f s)) :
    ∃ t, answer f s = .next t ∧ CommandEffect c s t := by
  unfold answer
  split
  · exact ⟨_, rfl, h⟩
  · exact ⟨_, rfl, .same⟩

/-- Every command answers a next state, and it is one of the effects. -/
theorem exec_effect (c : Instr) (s : State) : ∃ t, exec c s = .next t ∧ CommandEffect c s t := by
  cases c with
  | powerUp straps pfw reset => exact ⟨_, rfl, .poweredUp straps pfw reset rfl⟩
  | supplyLoss => exact answer_effect _ s _ (.supplyLost rfl)
  | tick =>
    exact answer_effect _ s (fun s => settleStep false (tickBody s)) .ticked
  | settleEnd =>
    refine answer_effect _ s _ ?_
    split
    · exact .ticked
    · exact .same
  | deadlineExpiry d =>
    refine answer_effect _ s _ ?_
    split
    · exact .ticked
    · exact .same
  | resetAssert straps =>
    exact answer_effect _ s (fun s => resetFalls (showStraps straps s)) (.resetFell straps rfl)
  | resetRelease straps =>
    exact answer_effect _ s (fun s => resetRises (showStraps straps s)) (.resetRose straps rfl)
  | pfwAssert straps =>
    exact answer_effect _ s (fun s => pfwFalls (showStraps straps s)) (.pfwFell straps rfl)
  | pfwRelease straps =>
    exact answer_effect _ s (fun s => pfwRises (showStraps straps s)) (.pfwRose straps rfl)
  | hostRead addr lanes alt => exact answer_effect _ s _ (.cycled _)
  | hostWrite addr lanes alt data => exact answer_effect _ s _ (.cycled _)
  | hostCycleEnd => exact answer_effect _ s _ (.cycleEnded rfl)
  | hostAccessComplete f => exact answer_effect _ s _ (completeWhen_effect _ s _ f rfl)
  | memoryAccessComplete f => exact answer_effect _ s _ (completeWhen_effect _ s _ f rfl)
  | copyComplete f => exact answer_effect _ s _ (completeWhen_effect _ s _ f rfl)
  | epochWriteComplete f => exact answer_effect _ s _ (completeWhen_effect _ s _ f rfl)
  | retireComplete f => exact answer_effect _ s _ (completeWhen_effect _ s _ f rfl)
  | restoreSlotComplete f => exact answer_effect _ s _ (completeWhen_effect _ s _ f rfl)
  | loadComplete f => exact answer_effect _ s _ (completeWhen_effect _ s _ f rfl)
  | scanSlotJudged f => exact answer_effect _ s _ (completeWhen_effect _ s _ f rfl)
  | recoveryRestoreComplete f => exact answer_effect _ s _ (completeWhen_effect _ s _ f rfl)
  | installTagsComplete f => exact answer_effect _ s _ (completeWhen_effect _ s _ f rfl)
  | installCopyComplete f => exact answer_effect _ s _ (completeWhen_effect _ s _ f rfl)
  | installEpochsComplete f => exact answer_effect _ s _ (completeWhen_effect _ s _ f rfl)
  | frameBegin => exact answer_effect _ s _ (.framed _ (selectFalls_linkOnly s))
  | frameEnd bytes extra =>
    exact answer_effect _ s _ (selectRises_effect _ s s ⟨s.link, rfl, rfl, rfl, Or.inr rfl⟩ bytes _ (judgeFrame_effect bytes extra))
  | nop tag => exact answer_effect _ s _ (carryRequest_effect _ s _ _ fun _ => .nothing)
  | getStatus tag => exact answer_effect _ s _ (carryRequest_effect _ s _ _ (reqGetStatus_effect tag))
  | getDomain tag d p => exact answer_effect _ s _ (carryRequest_effect _ s _ _ (reqGetDomain_effect tag d p))
  | getSlot tag n => exact answer_effect _ s _ (carryRequest_effect _ s _ _ (reqGetSlot_effect tag n))
  | getRegion tag r => exact answer_effect _ s _ (carryRequest_effect _ s _ _ (reqGetRegion_effect tag r))
  | getStagedRegion tag i => exact answer_effect _ s _ (carryRequest_effect _ s _ _ (reqGetStagedRegion_effect tag i))
  | getStagedDomain tag i => exact answer_effect _ s _ (carryRequest_effect _ s _ _ (reqGetStagedDomain_effect tag i))
  | getStagedLog tag i => exact answer_effect _ s _ (carryRequest_effect _ s _ _ (reqGetStagedLog_effect tag i))
  | stageLoad tag => exact answer_effect _ s _ (carryRequest_effect _ s _ _ (reqStageLoad_effect tag))
  | stageRegion tag r base flags size count =>
    exact answer_effect _ s _ (carryRequest_effect _ s _ _ (reqStageRegion_effect tag r base flags size count))
  | stageDomain tag d flags quota deadline commit =>
    exact answer_effect _ s _ (carryRequest_effect _ s _ _ (reqStageDomain_effect tag d flags quota deadline commit))
  | stageLog tag len verify => exact answer_effect _ s _ (carryRequest_effect _ s _ _ (reqStageLog_effect tag len verify))
  | install tag => exact answer_effect _ s _ (carryRequest_effect _ s _ _ (reqInstall_effect tag))
  | abort tag d => exact answer_effect _ s _ (carryRequest_effect _ s _ _ (reqAbort_effect tag d))
  | resume tag d => exact answer_effect _ s _ (carryRequest_effect _ s _ _ (reqResume_effect tag d))
  | setModeBypass tag => exact answer_effect _ s _ (carryRequest_effect _ s _ _ (reqSetBypass_effect tag))
  | setModeGuarding tag => exact answer_effect _ s _ (carryRequest_effect _ s _ _ (reqSetGuarding_effect tag))
  | takeEvent tag => exact answer_effect _ s _ (carryRequest_effect _ s _ _ (reqTakeEvent_effect tag))
  | setEvents tag mask => exact answer_effect _ s _ (carryRequest_effect _ s _ _ (reqSetEvents_effect tag mask))
  | restart tag => exact answer_effect _ s _ (carryRequest_effect _ s _ _ (reqRestart_effect tag))

/-- The effects of a command whose next state is known. -/
theorem exec_cases (c : Instr) (s t : State) (h : exec c s = .next t) : CommandEffect c s t := by
  obtain ⟨u, hu, he⟩ := exec_effect c s
  rw [hu] at h
  injection h with h
  exact h ▸ he

end Sys2Proof.Machine
end

