-- ==== Sys2Proof/WellFormed.lean ====
section
/-! DEFINITION. Which commands are well formed. -/

namespace Sys2Proof

/-- Every operand's range is in its type, but for the bits clocked after the last whole byte of a frame: eight rising edges
make a whole byte, so a partial byte has at most seven bits (R182). -/
def Instr.wellFormed : Instr → Bool
  | .frameEnd _ extraBits => decide (extraBits < 8)
  | _ => true

end Sys2Proof
end

