-- ==== Sys2Proof/Tests/Slice0.lean ====
section
/-! SUPPORT. Tests on single steps, with expected values from the manual's rules and worked examples, and for every statement
with hypotheses a witness that meets them. -/

namespace Sys2Proof.Tests

open Sys2Proof.Machine

/-! ### States for the tests -/

/-- The ledger layout of section 1.6. -/
def ledger : Layout :=
  { Layout.cleared with
    regions := (((Layout.cleared.regions.set 0
        { active := true, base := 0x01000, size := 6, count := 100, kind := .journal, domain := 0 }).set 1
        { active := true, base := 0x02000, size := 16, count := 256, kind := .once, domain := 0 }).set 2
        { active := true, base := 0x00100, size := 1, count := 64, kind := .fixed, domain := 0 }).set 3
        { active := true, base := 0x0A000, size := 64, count := 32, kind := .journal, domain := 1 }
    domains := (Layout.cleared.domains.set 0
        { enabled := true, commitAddr := 0x01000, guardMode := .advance, deadline := 50, quota := 8, fence := true
          strict := true }).set 1
        { enabled := true, commitAddr := 0x0A002, guardMode := .increase, deadline := 0, quota := 4, fence := false
          strict := false }
    logLength := 8192 }

/-- An IDLE runtime record at a committed epoch. -/
def idleAt (epoch : Word) : Runtime := { Runtime.discarded with state := .idle, committed := epoch }

/-- GUARDING under the ledger layout with the straps 01, every slot shown FREE; only four slots are listed. -/
def guarding : State :=
  { State.reset with
    straps := { loc := 1, mt := 0 }
    loc := 1
    mode := .guarding
    layout := ledger
    activeCopy := some .a
    activeSequence := 1
    geometry := { wmax := 64, stride := 68, slots := 4 }
    domains := (State.reset.domains.set 0 (idleAt 0x41)).set 1 (idleAt 0)
    pool := [.freeEntry, .freeEntry, .freeEntry, .freeEntry]
    freeQueue := [0, 1, 2, 3]
    memPort := { access := none, stopped := false, boost := false, pointer := 4 } }

/-- An ACTIVE slot of domain 0 for a record of region 0 at the open epoch 0x42. -/
def member (record : Nat) : PoolEntry := { state := .active, domain := 0, epoch := 0x42, region := 0, record := record }

/-- Domain 0 OPEN with records 3 and 0 of region 0 in slots 0 and 1; the image of the commit word reads 7. -/
def opened : State :=
  { guarding with
    domains := guarding.domains.set 0 { idleAt 0x41 with state := .opened, members := [0, 1], timer := 50 }
    pool := [member 3, member 0, .freeEntry, .freeEntry]
    freeQueue := [2, 3]
    slotIndex := [{ region := 0, record := 3, slot := 0 }, { region := 0, record := 0, slot := 1 }]
    memory := [(0x10298, 7)] }

/-- Domain 0 in another update state, its other fields kept. -/
def inState (u : UpdateState) (s : State) : State := s.setDom 0 { s.dom 0 with state := u }

/-- An access in progress. -/
def withAccess (a : Access) (s : State) : State := { s with memPort := { s.memPort with access := some a } }

/-- A stream's access of a claimant. -/
def streamAccess (c : Claimant) (write : Bool) (addr : Addr) (data : Word) : Access :=
  { claimant := c, write := write, addr := addr, lanes := { low := true, high := true }, data := data, orphan := false }

/-- A mode with the rest kept. -/
def inMode (m : Mode) (s : State) : State := { s with mode := m }

/-- Verify on. -/
def verifying (s : State) : State := { s with layout := { s.layout with verify := true } }

/-- Both lanes. -/
def both : Lanes := { low := true, high := true }

/-- A write in DECIDING on a word of region 0, record `r`, offset `o`, that waits for something. -/
def deciding (r o : Nat) (data : Word) (g : WriteStage) (s : State) : State :=
  let c : BusCycle := writeCycle (BitVec.ofNat 19 (0x1000 + 6 * r + o)) both false data
  let h : Hit := { region := 0, record := r, offset := o, kind := .journal, domain := 0 }
  { s with port := .latched .deciding c (some (.hit h)) (some .journal) g }

/-- Domain 0 OPEN, the copy of record 4 into slot 2 at a position. -/
def copying (pos : CopyPos) (write : Bool) (addr : Addr) (data : Word) : State :=
  let s : State := { opened with
    domains := opened.domains.set 0 { opened.dom 0 with members := [0, 1, 2] }
    pool := [member 3, member 0, { member 4 with state := .copying }, .freeEntry]
    freeQueue := [3]
    slotIndex := opened.slotIndex ++ [{ region := 0, record := 4, slot := 2 }]
    copy := some { slot := 2, pos := pos, back := false, sum := 0 } }
  withAccess (streamAccess .copy write addr data) (deciding 4 1 0x55 .copy s)

/-- The last write of that copy: the live tag of domain 0 at slot 2's first word. -/
def tagging : State := copying .tag true 0x0818C 0xA600

/-- Domain 0 COMMITTING, the epoch write in progress. -/
def committing : State :=
  withAccess (streamAccess .commit true 0x08100 0x42)
    (deciding 0 0 8 .epochWrite { inState .committing opened with commit := some { domain := 0, back := false } })

/-- Domain 0 IDLE after that commit, slots 0 and 1 RETIRING, the tag of slot 0 being cleared. -/
def retiring : State :=
  withAccess (streamAccess .retire true 0x08104 0)
    { guarding with
      domains := guarding.domains.set 0 { idleAt 0x42 with backlog := 2 }
      pool := [{ member 3 with state := .retiring }, { member 0 with state := .retiring }, .freeEntry, .freeEntry]
      freeQueue := [2, 3]
      retireQueue := [0, 1] }

/-- Domain 0 ROLLING with slot 1 in progress at a position and slot 0 on its list. -/
def rolling (pos : RestorePos) (write : Bool) (addr : Addr) (data : Word) : State :=
  withAccess (streamAccess (.restore 0) write addr data)
    { opened with
      domains := opened.domains.set 0 { idleAt 0x41 with
        state := .rolling
        restoreList := [0]
        stream := some { epoch := 0x42, cause := .requested, slot := some 1, pos := pos, back := false, restored := 0 } }
      pool := [{ member 3 with state := .restoring }, { member 0 with state := .restoring }, .freeEntry, .freeEntry] }

/-- STARTING in LOAD or later with a recovery position; the access is the recovery's. -/
def starting (phase : Phase) (pos : RecPos) (write : Bool) (addr : Addr) (data : Word) : State :=
  withAccess (streamAccess .recovery write addr data)
    { guarding with
      mode := .starting
      recovery := { Recovery.entered .powerUp phase (Vector.replicate 4 false) with
        chosen := some { copy := .a, sequence := 1, layout := ledger }, epochs := Vector.replicate 4 0x41, pos := pos }
      domains := State.reset.domains
      pool := []
      freeQueue := [] }

/-- INSTALLING at a step, its access in progress. -/
def installing (step : InstallStep) (write : Bool) (addr : Addr) (data : Word) : State :=
  withAccess (streamAccess .install write addr data)
    { guarding with
      mode := .installing
      staging := ledger
      link := { guarding.link with pendingOp := .install 9 }
      install := some { returnMode := .guarding, target := .b, sequence := 2, step := step, back := false
                        epochs := Vector.replicate 4 0 } }

/-- The state after a command. -/
def after (c : Instr) (s : State) : State :=
  match exec c s with
  | .next t => t
  | .fault _ => s
  | .refused _ => s

/-! ### Well-formedness and decoding -/

theorem test_seven_extra_bits_pass : (Instr.frameEnd [] 7).wellFormed = true := by decide
theorem test_eight_extra_bits_refused : (Instr.frameEnd [] 8).wellFormed = false := by decide
theorem test_no_word_spells_a_command : decodeTableWord 8 0 = none := by decide

/-! ### Formats (sections 1.6, 3.8, 11.1, 11.2) -/

theorem test_check_of_the_saved_account : checkWord 0x0042 0x0003 (0x0001 + 0x0050 + 0x1234 + 0x00A0) = 0xEC95 := by decide
theorem test_locator_of_region_3_record_31 : locatorWord 3 31 = 0x301F := by decide
theorem test_live_tag_of_domain_0 : liveTag 0 = 0xA600 := by decide
theorem test_region_1_words : (ledger.regions[1]).words = [0x2000, 0x8010, 0x0010, 0x0100] := by decide
theorem test_region_3_words : (ledger.regions[3]).words = [0xA000, 0x8100, 0x0040, 0x0020] := by decide
theorem test_domain_0_words : (ledger.domains[0]).words = [0xE107, 0x1000, 0x0000, 0x0032] := by decide
theorem test_domain_1_words : (ledger.domains[1]).words = [0x8203, 0xA002, 0x0000, 0x0000] := by decide
theorem test_ledger_stride : ledger.geometry.stride = 68 := by decide
theorem test_ledger_slots : ledger.geometry.slots = 116 := by decide +kernel
theorem test_slot_115 : slotWord 0x08000 68 115 0 = 0x09F90 := by decide
theorem test_sequence_wraps : sequenceHigher 0x0000 0xFFFF = true := by decide
theorem test_sequence_half_way_is_not_higher : sequenceHigher 0x9000 0x1000 = false := by decide
theorem test_log_end_is_log_area : classify guarding 0x09FFF = .logArea := by decide
theorem test_one_past_the_span_is_uncovered : classify guarding 0x01258 = .uncovered := by decide
theorem test_receipt_record : classify guarding 0x02345 =
    .hit { region := 1, record := 52, offset := 5, kind := .once, domain := 0 } := by decide
theorem test_trip_log_record : classify guarding 0x0A7C1 =
    .hit { region := 3, record := 31, offset := 1, kind := .journal, domain := 1 } := by decide
theorem test_ledger_is_valid : validate 0x08000 ledger = none := by decide
theorem test_ledger_at_the_top_is_out_of_range : validate 0x7F000 ledger =
    some { detail := .outOfRange, first := 0, second := 0 } := by decide

/-! ### Supply, ticks and pins -/

theorem test_power_up_starts_in_settle : (after (.powerUp { loc := 2, mt := 1 } false false) opened).recovery.phase = .settle := by
  decide
theorem test_power_up_keeps_the_memory : (after (.powerUp { loc := 2, mt := 1 } false false) opened).memory = [(0x10298, 7)] := by
  decide
theorem test_supply_loss_drops_the_events :
    (after .supplyLoss { opened with events := [{ event := .installed 1, lost := false }] }).events = [] := by decide
theorem test_tick_lowers_the_timer : ((after .tick opened).dom 0).timer = 49 := by decide
theorem test_expiry_rolls_back :
    ((after (.deadlineExpiry 0) (opened.setDom 0 { opened.dom 0 with timer := 1 })).dom 0).state = .rolling := by decide
theorem test_rollback_restores_newest_first :
    ((after (.deadlineExpiry 0) (opened.setDom 0 { opened.dom 0 with timer := 1 })).dom 0).restoreList = [0] := by decide
theorem test_second_tick_ends_settle :
    (after .settleEnd { State.reset with recovery := { State.reset.recovery with settle := 1 } }).recovery.phase = .load := by
  decide
theorem test_first_tick_does_not_end_settle : after .settleEnd State.reset = State.reset := by decide
theorem test_reset_enters_load : (after (.resetAssert { loc := 1, mt := 0 }) opened).recovery.phase = .load := by decide
theorem test_reset_waits_for_its_release : (after (.resetAssert { loc := 1, mt := 0 }) opened).memPort.access = none := by decide
theorem test_reset_release_reads_copy_a :
    (after (.resetRelease { loc := 1, mt := 0 }) (after (.resetAssert { loc := 1, mt := 0 }) opened)).memPort.access
      = some (streamAccess .recovery false 0x08000 0) := by decide
theorem test_power_fail_freezes : (after (.pfwAssert { loc := 1, mt := 0 }) opened).mode = .frozen := by decide
theorem test_power_fail_clears_the_settle_count :
    (after (.pfwAssert { loc := 0, mt := 0 }) { State.reset with recovery := { State.reset.recovery with settle := 1 } }).recovery.settle
      = 0 := by decide
theorem test_release_restarts_warm :
    (after (.pfwRelease { loc := 1, mt := 0 }) (inMode .frozen { opened with pfwAsserted := true })).recovery.startKind = .warm := by
  decide

/-! ### The host bus -/

theorem test_primary_read_of_a_member_passes :
    (after (.hostRead 0x01013 both false) opened).memPort.access = some (hostReadAt 0x01013) := by decide
theorem test_alternate_read_of_a_member_is_redirected :
    (after (.hostRead 0x01013 both true) opened).memPort.access = some (hostReadAt 0x08109) := by decide
theorem test_join_reads_the_record :
    (after (.hostWrite 0x01019 both false 5) opened).memPort.access = some (streamAccess .copy false 0x01018 0) := by decide
theorem test_commit_below_the_guard_aborts :
    ((after (.hostWrite 0x01000 both false 9) opened).dom 0).state = .rolling := by decide
theorem test_cycle_end_vacates :
    (after .hostCycleEnd { guarding with port := { guarding.port with state := .closing } }).port.state = .vacant := by decide
theorem test_read_data_is_driven :
    (after (.hostAccessComplete (some 0x1234)) (after (.hostRead 0x01013 both false) opened)).dataDriven = some 0x1234 := by decide
theorem test_byte_write_keeps_the_other_lane :
    Memory.word (after (.hostAccessComplete none)
      (after (.hostWrite 0x0814C { low := false, high := true } false 0x1234) (inMode .unconfigured opened))).memory 0x0814C
      = 0x1207 := by decide

/-! ### Memory side -/

theorem test_copied_word_goes_to_the_image :
    (after (.memoryAccessComplete (some 0xABCD)) (copying (.read 0) false 0x01018 0)).memPort.access
      = some (streamAccess .copy true 0x08190 0xABCD) := by decide
theorem test_copy_makes_the_slot_active : ((after (.copyComplete none) tagging).slot 2).state = .active := by decide
theorem test_copy_lets_the_write_through :
    (after (.copyComplete none) tagging).memPort.access = some (hostStoreOf (writeCycle 0x01019 both false 0x55)) := by decide
theorem test_commit_advances_the_epoch : ((after (.epochWriteComplete none) committing).dom 0).committed = 0x42 := by decide
theorem test_commit_queues_the_members : (after (.epochWriteComplete none) committing).retireQueue = [0, 1] := by decide
theorem test_retired_slot_is_last_in_the_queue : (after (.retireComplete none) retiring).freeQueue = [2, 3, 0] := by decide
theorem test_retire_lowers_the_backlog : ((after (.retireComplete none) retiring).dom 0).backlog = 1 := by decide
theorem test_restored_slot_is_free :
    ((after (.restoreSlotComplete none) (rolling .tag true 0x08148 0)).slot 1).state = .free := by decide
set_option maxRecDepth 4000 in
theorem test_blank_memory_has_no_layout :
    (after (.loadComplete none) (starting .load (.copies (List.replicate 255 0)) false 0x080FF 0)).mode = .unconfigured := by
  decide
theorem test_zero_tag_is_a_free_slot :
    (after (.scanSlotJudged none) (starting .scan (.scan .tag false) false 0x08104 0)).recovery.outcomes = [.free] := by decide
theorem test_last_restore_ends_starting :
    (after (.recoveryRestoreComplete none) (starting .restore
      (.restore { slot := 0, domain := 0, epoch := 0x42, region := 0, record := 3, size := 6 } .tag false) true 0x08104 0)).mode
      = .guarding := by decide
theorem test_tags_then_copy :
    (after (.installTagsComplete none) (installing (.tags 115) true 0x09F90 0)).install.map (·.step) = some (.copy 0) := by
  decide
theorem test_epochs_then_guarding :
    (after (.installEpochsComplete none) (installing (.epochs [1]) false 0x08101 0)).activeSequence = 2 := by decide

/-! ### The management link (R182, R183) -/

theorem test_status_byte_is_latched :
    ((after .frameBegin { guarding with events := [{ event := .installed 1, lost := false }] }).link.output).map (·.take 1)
      = some [0x0A] := by decide
theorem test_short_frame_is_bad_length : (after (.frameEnd [0x02, 0x07] 0) (after .frameBegin guarding)).link.result =
    { tag := 7, code := 2, result := .badLength, data := [] } := by decide
theorem test_nop_keeps_the_result : (after (.nop 7) guarding).link.result = .empty := by decide
theorem test_status_of_the_ledger : (after (.getStatus 7) guarding).link.result.data =
    [2, 1, 1, 1, 0, 0, 4, 4, 0, 0, 0, 1, 0, 1] := by decide
theorem test_domain_of_the_ledger : ((after (.getDomain 7 0 0) opened).link.result.data).take 12 =
    [0xE1, 8, 0, 50, 0x00, 0x10, 0x00, 2, 0x00, 0x41, 0x00, 0x42] := by decide
theorem test_slot_address : (after (.getSlot 7 1) opened).link.result.data = [2, 0, 0, 0x42, 0, 0, 0, 0x00, 0x81, 0x48] := by decide
theorem test_region_3_reported : (after (.getRegion 7 3) guarding).link.result.data =
    [0x90, 0x00, 0xA0, 0x00, 64, 0, 32, 1] := by decide
theorem test_staged_region_16 : (after (.getStagedRegion 7 16) guarding).link.result.result = .badIndex := by decide
theorem test_staged_domain_is_cleared : (after (.getStagedDomain 7 3) guarding).link.result.data = [0, 1, 0, 0, 0, 0, 0] := by decide
theorem test_staged_log : (after (.getStagedLog 7 0) { guarding with staging := ledger }).link.result.data =
    [0x00, 0x20, 0x00, 0, 68, 116] := by decide
theorem test_stage_load : (after (.stageLoad 7) guarding).staging = ledger := by decide
theorem test_stage_region_kind_3 : (after (.stageRegion 7 0 0x100 0x83 1 1) guarding).link.result.result = .badValue := by decide
theorem test_stage_domain_quota : ((after (.stageDomain 7 1 0x80 128 0 0) guarding).staging.domains[1]).quota = 128 := by decide
theorem test_stage_log_too_short : (after (.stageLog 7 263 0) guarding).link.result.result = .badValue := by decide
theorem test_install_needs_a_quiet_part : (after (.install 7) opened).link.result.result = .notQuiet := by decide
theorem test_install_clears_the_first_tag : (after (.install 7) { guarding with staging := ledger }).memPort.access =
    some (streamAccess .install true 0x08104 0) := by decide
theorem test_abort_reports_the_members : (after (.abort 7 0) opened).link.result.data = [0, 0x00, 0x42, 2] := by decide
theorem test_resume_of_a_fenced_domain : ((after (.resume 7 0) (inState .fenced opened)).dom 0).state = .idle := by decide
theorem test_bypass_needs_a_quiet_part : (after (.setModeBypass 7) opened).link.result.result = .notQuiet := by decide
theorem test_guarding_from_bypass : (after (.setModeGuarding 7) (inMode .bypass guarding)).mode = .guarding := by decide
theorem test_event_bytes : (after (.takeEvent 7) { guarding with events :=
      [{ event := .writeBlocked .fixed 0x0013F (some 2) none 1, lost := false }] }).link.result.data =
    [0x03, 0x01, 0x01, 0x00, 0x01, 0x3F, 0x02, 0x00, 0x01] := by decide
theorem test_mask_bit_9_refused : (after (.setEvents 7 0x0200) guarding).link.result.result = .badValue := by decide
theorem test_restart_is_pending : (after (.restart 7) guarding).link.pendingOp = .restart 7 := by decide

theorem test_sdo_shifts_the_copy_then_zeros :
    (after .frameBegin guarding).shiftedOut 1 = some 0x02 ∧ (after .frameBegin guarding).sdo 6 = some true
    ∧ (after .frameBegin guarding).shiftedOut 30 = some 0 ∧ guarding.sdo 0 = none := by decide

/-! ### Witnesses: states and operands that meet the hypotheses of the statements together -/

/-- The part listens. -/
theorem listening_guarding : guarding.Listening := ⟨rfl, rfl, rfl⟩

/-- So it does with domain 0 OPEN. -/
theorem listening_opened : opened.Listening := ⟨rfl, rfl, rfl⟩

theorem witness_StepRunsTheFrontCommand :
    ({ guarding with pending := [.tick, .frameBegin] } : State).pending = .tick :: [.frameBegin] ∧ guarding.pending = [] :=
  ⟨rfl, rfl⟩

theorem witness_MemoryReadsBackTheWrittenLanes : Memory.wf opened.memory = true := by decide

theorem witness_MemoryChangesOnlyByACompletedWrite :
    ∃ t, exec (.copyComplete none) tagging = .next t ∧ t.memory ≠ tagging.memory := ⟨_, rfl, by decide⟩

theorem witness_MemoryStaysCanonical :
    Memory.wf tagging.memory = true ∧ ∃ t, step { tagging with pending := [.copyComplete none] } = .next t :=
  ⟨by decide, _, rfl⟩

theorem witness_BegunAccessIsNeverCut :
    tagging.memPort.access = some (streamAccess .copy true 0x0818C 0xA600)
    ∧ (∃ t, exec (.pfwAssert { loc := 1, mt := 0 }) tagging = .next t)
    ∧ completionFlaw (.pfwAssert { loc := 1, mt := 0 }) = none ∧ Instr.pfwAssert { loc := 1, mt := 0 } ≠ .supplyLoss :=
  ⟨rfl, ⟨_, rfl⟩, rfl, by decide⟩

theorem witness_NewAccessesFollowTheState :
    (guarding.port.waiting = none ∧ guarding.memPort.access = none
      ∧ ∃ t, exec (.hostRead 0x01013 both false) guarding = .next t ∧ t.memPort.access = some (hostReadAt 0x01013))
    ∧ (tagging.port.waiting = none ∧ (completionFlaw (.copyComplete none)).isSome = true
      ∧ ∃ t, exec (.copyComplete none) tagging = .next t ∧ t ≠ tagging
        ∧ t.memPort.access = some (hostStoreOf (writeCycle 0x01019 both false 0x55))) :=
  ⟨⟨rfl, rfl, _, rfl, by decide⟩, rfl, rfl, _, rfl, by decide, by decide⟩

theorem witness_NothingReadyIsLeftWaiting :
    (guarding.Settled ∧ ∃ t, step { guarding with pending := [.hostWrite 0x01019 both false 5] } = .next t)
    ∧ guarding.NoCycleWaits ∧ ∃ t, step { guarding with pending := [.hostCycleEnd] } = .next t :=
  ⟨⟨by unfold State.Settled; decide, _, rfl⟩, fun _ => rfl, _, rfl⟩

theorem witness_ClaimantsKeepToTheirModes : (installing (.tags 0) true 0x08104 0).ClaimantsFit
    ∧ ∃ t, step (installing (.tags 0) true 0x08104 0) = .next t := by
  refine ⟨⟨?_, ?_, by decide⟩, _, rfl⟩
  · intro a ha _
    cases ha
    exact ⟨by decide, fun _ => Or.inl rfl⟩
  · intro st hst
    cases hst
    exact ⟨Or.inl rfl, Or.inl rfl⟩

theorem ledger_in_range : ledger.InRange ∧ ledger.LogInRange := by
  unfold Layout.InRange Layout.LogInRange
  decide

theorem guarding_in_range : guarding.LayoutsInRange := by
  refine ⟨ledger_in_range.1, Or.inr ledger_in_range.2, by unfold Layout.InRange; decide, Or.inl rfl, fun c hc => ?_⟩
  cases hc

theorem witness_LayoutsAndBuffersStayInRange :
    guarding.BuffersFit ∧ guarding.LayoutsInRange ∧ ∃ t, step { guarding with pending := [.stageLoad 7] } = .next t :=
  ⟨by unfold State.BuffersFit; decide, guarding_in_range, _, rfl⟩

theorem tagging_agrees : tagging.CollectionsAgree := by
  constructor <;> first | decide | (unfold State.SlotIs; decide)

theorem tagging_fits : tagging.WorkFits := by
  constructor
  case copy => intro c hc; cases hc; unfold State.SlotIs; decide
  case commit => intro c hc; cases hc
  case held =>
    intro h hh
    cases hh
    exact ⟨fun h => absurd h (by decide), fun _ => ⟨_, rfl, rfl⟩, by decide, by decide⟩
  case starting => intro h; cases h
  case streams =>
    intro d
    refine ⟨by revert d; decide, fun st i hst _ => ?_⟩
    have : ∀ d, (tagging.dom d).stream = none := by decide
    rw [this d] at hst
    cases hst
  all_goals first | decide | (unfold State.SlotIs; decide)

theorem witness_CollectionsKeepAgreeingWithThePool :
    tagging.CollectionsAgree ∧ tagging.WorkFits ∧ tagging.LayoutsInRange ∧ tagging.ClaimantsFit
    ∧ ∃ t, step { tagging with pending := [.copyComplete none] } = .next t := by
  refine ⟨tagging_agrees, tagging_fits, guarding_in_range, ⟨?_, ?_, by decide⟩, _, rfl⟩
  · intro a ha _
    cases ha
    exact ⟨by decide, by decide⟩
  · intro st hst
    cases hst

theorem witness_CommittedEpochMovesOnlyAtTheCommit :
    committing.ClaimantsFit ∧ committing.mode ≠ .starting ∧ committing.mode ≠ .installing
    ∧ ∃ t, exec (.epochWriteComplete none) committing = .next t ∧ t.mode ≠ .starting := by
  refine ⟨⟨?_, ?_, by decide⟩, by decide, by decide, _, rfl, by decide⟩
  · intro a ha _
    cases ha
    exact ⟨by decide, by decide⟩
  · intro st hst
    cases hst

theorem ledger_spans_apart : ∀ r q : Fin 16, r < q → ledger.regions[r].active = true → ledger.regions[q].active = true →
    ledger.regions[r].base.toNat + ledger.regions[r].size * ledger.regions[r].count ≤ ledger.regions[q].base.toNat
    ∨ ledger.regions[q].base.toNat + ledger.regions[q].size * ledger.regions[q].count ≤ ledger.regions[r].base.toNat := by
  decide

theorem ledger_spans_off_the_log : ∀ r : Fin 16, ledger.regions[r].active = true →
    ledger.regions[r].base.toNat + ledger.regions[r].size * ledger.regions[r].count ≤ 0x08000
    ∨ 0x0A000 ≤ ledger.regions[r].base.toNat := by decide

theorem ledger_apart (r q : Fin 16) (hlt : r < q) : ledger.Apart r q := by
  intro hr hq a ha hb
  have h := ledger_spans_apart r q hlt hr hq
  unfold Layout.HasWord at ha hb
  omega

theorem ledger_off_the_log (r : Fin 16) : ledger.OffTheLog 0x08000 r := by
  intro hr a ha hb
  have h := ledger_spans_off_the_log r hr
  have hl : ledger.logLength = 8192 := rfl
  unfold Layout.HasWord at ha
  omega

theorem witness_ClassificationLocatesTheRecord :
    (guarding.activeCopy ≠ none ∧ logStartOf guarding.loc ≤ (0x09FFF : Addr).toNat
      ∧ (0x09FFF : Addr).toNat < logStartOf guarding.loc + ledger.logLength)
    ∧ (¬ (0x0A7C1 : Addr).toNat < logStartOf guarding.loc + ledger.logLength
      ∧ ledger.regions[(3 : Fin 16)].active = true ∧ ledger.HasWord 3 (0x0A7C1 : Addr).toNat)
    ∧ (¬ logStartOf guarding.loc ≤ (0x01258 : Addr).toNat ∧ ∀ r : Fin 16, ¬ ledger.HasWord r (0x01258 : Addr).toNat)
    ∧ (∀ r, guarding.layout.OffTheLog (logStartOf guarding.loc) r) ∧ ∀ r q, r < q → guarding.layout.Apart r q := by
  refine ⟨by decide, ?_, ?_, ledger_off_the_log, ledger_apart⟩
  all_goals (unfold Layout.HasWord; decide)

/-- A layout of a log length with one or two active regions, domain 3 as given. -/
def sketch (log : Nat) (first second : RegionEntry) (owner : DomainCfg) : Layout :=
  { Layout.cleared with
    regions := (Layout.cleared.regions.set 0 first).set 15 second
    domains := Layout.cleared.domains.set 3 owner
    logLength := log }

/-- An inactive entry. -/
def noRegion : RegionEntry := { active := false, base := 0, size := 1, count := 1, kind := .journal, domain := 0 }

/-- One word at 0x1000. -/
def oneWord (kind : RegionKind) (d : Fin 4) : RegionEntry :=
  { active := true, base := 0x01000, size := 1, count := 1, kind := kind, domain := d }

/-- A disabled domain. -/
def noDomain : DomainCfg :=
  { enabled := false, commitAddr := 0x01000, guardMode := .any, deadline := 0, quota := 2, fence := false, strict := false }

/-- Below the log, with no two regions active, the first four checks pass. -/
theorem passesFour_of_apart {start : Nat} {l : Layout} (h1 : l.LogFits start) (h2 : ∀ r, l.EntryFits r)
    (h3 : ∀ r : Fin 16, l.regions[r].active = true → l.regions[r].base.toNat + l.regions[r].size * l.regions[r].count ≤ start)
    (h4 : ∀ r q : Fin 16, r < q → l.regions[r].active = true → l.regions[q].active = true → False) : l.PassesFour start := by
  refine ⟨h1, h2, fun r hr a ha hb => ?_, fun r q hlt hr hq => (h4 r q hlt hr hq).elim⟩
  have h := h3 r hr
  have h' := ha.2
  omega

/-- The layout of two regions at one word. -/
def twins : Layout := sketch 264 (oneWord .fixed 0) (oneWord .fixed 0) noDomain

theorem twins_below_the_log : ∀ r : Fin 16, twins.regions[r].active = true →
    twins.regions[r].base.toNat + twins.regions[r].size * twins.regions[r].count ≤ 0x08000 := by decide

theorem witness_ValidationIsTheEightChecks_1_to_4 :
    ¬ (sketch 263 noRegion noRegion noDomain).LogFits 0
    ∧ (let l := sketch 264 noRegion { noRegion with size := 65 } noDomain
       l.LogFits 0x7FEF8 ∧ ¬ l.EntryFits 15 ∧ ∀ q, q < 15 → l.EntryFits q)
    ∧ (let l := sketch 264 noRegion (oneWord .fixed 0) noDomain
       l.LogFits 0x00FFF ∧ (∀ q, l.EntryFits q) ∧ ¬ l.OffTheLog 0x00FFF 15 ∧ ∀ q, q < 15 → l.OffTheLog 0x00FFF q)
    ∧ (let l := twins
       l.LogFits 0x08000 ∧ (∀ p, l.EntryFits p) ∧ (∀ p, l.OffTheLog 0x08000 p) ∧ (0 : Fin 16) < 15 ∧ ¬ l.Apart 0 15
        ∧ ∀ r' q' : Fin 16, r' < q' → r' < 0 ∨ (r' = 0 ∧ q' < 15) → l.Apart r' q') := by
  refine ⟨by unfold Layout.LogFits; decide, ⟨by unfold Layout.LogFits; decide, by unfold Layout.EntryFits; decide,
    by unfold Layout.EntryFits; decide⟩, ⟨by unfold Layout.LogFits; decide, by unfold Layout.EntryFits; decide, ?_, ?_⟩,
    ⟨by unfold Layout.LogFits; decide, by unfold Layout.EntryFits; decide, ?_, by decide, ?_, ?_⟩⟩
  · exact fun h => h rfl 0x1000 (by unfold Layout.HasWord; decide) (by decide)
  · intro q hq hr
    exact absurd hr (by revert q; decide)
  · intro p hr a ha hb
    have h' := twins_below_the_log p hr
    have h'' := ha.2
    omega
  · exact fun h => h rfl rfl 0x1000 (by unfold Layout.HasWord; decide) (by unfold Layout.HasWord; decide)
  · intro r' q' hlt h hr hq
    exact absurd hq (by revert r' q'; decide)

theorem witness_ValidationIsTheEightChecks_5_to_8 :
    (let l := sketch 264 noRegion (oneWord .journal 3) noDomain
     l.PassesFour 0x08000 ∧ ¬ l.DomainOn 15 ∧ ∀ q, q < 15 → l.DomainOn q)
    ∧ (let l := sketch 264 (oneWord .once 3) noRegion { noDomain with enabled := true }
       l.PassesFour 0x08000 ∧ (∀ r, l.DomainOn r) ∧ ¬ l.CommitInside 3 ∧ ∀ e, e < 3 → l.CommitInside e)
    ∧ (let l := sketch 264 { oneWord .fixed 0 with size := 64 } noRegion noDomain
       l.PassesFour 0x08000 ∧ (∀ r, l.DomainOn r) ∧ (∀ d, l.CommitInside d) ∧ ¬ 1 ≤ l.geometry.slots)
    ∧ (let l := sketch 265 (oneWord .journal 3) noRegion { noDomain with enabled := true }
       l.PassesFour 0x08000 ∧ (∀ r, l.DomainOn r) ∧ (∀ d, l.CommitInside d) ∧ 1 ≤ l.geometry.slots ∧ ¬ l.QuotaFits 3
        ∧ ∀ e, e < 3 → l.QuotaFits e) := by
  refine ⟨⟨?_, by unfold Layout.DomainOn; decide, by unfold Layout.DomainOn; decide⟩,
    ⟨?_, by unfold Layout.DomainOn; decide, by unfold Layout.CommitInside Layout.HasWord; decide,
      by unfold Layout.CommitInside Layout.HasWord; decide⟩,
    ⟨?_, by unfold Layout.DomainOn; decide, by unfold Layout.CommitInside Layout.HasWord; decide, by decide⟩,
    ⟨?_, by unfold Layout.DomainOn; decide, by unfold Layout.CommitInside Layout.HasWord; decide, by decide,
      by unfold Layout.QuotaFits; decide, by unfold Layout.QuotaFits; decide⟩⟩
  all_goals
    exact passesFour_of_apart (by unfold Layout.LogFits; decide) (by unfold Layout.EntryFits; decide) (by decide) (by decide)

theorem witness_ConfigurationCopyReadsBack : ledger.InRange ∧ validate 0x08000 ledger = none :=
  ⟨by unfold Layout.InRange; decide, by decide⟩

/-- The retire of slot 0 in progress while a read stands at the Memory Port. -/
def hostBesideRetire : State :=
  { retiring with port := .latched .atMemory (readCycle 0x00080 both false) (some .uncovered) (some .pass) .none }

theorem witness_ArbiterGrantsTheHighestRank :
    (hostBesideRetire.powered = true ∧ hostBesideRetire.memPort.access = some (streamAccess .retire true 0x08104 0)
      ∧ hostBesideRetire.port.waiting = none ∧ hostBesideRetire.ClaimantsFit
      ∧ ∃ t, exec (.memoryAccessComplete none) hostBesideRetire = .next t ∧ t.memPort.stopped = false
        ∧ t.standing = [.host, .retire] ∧ grantRank t.memPort.boost 4 .host ≤ grantRank t.memPort.boost 4 .retire)
    ∧ (let s := rolling (.word 0 7) true 0x01000 7
       ∃ t, exec (.memoryAccessComplete none) s = .next t ∧ t.memPort.stopped = false ∧ t.standing = [.restore 0])
    ∧ (let s := { retiring with retireQueue := [0] }
       ∃ t, exec (.memoryAccessComplete none) s = .next t ∧ t.memPort.stopped = false ∧ t.standing = [])
    ∧ (let s := inMode .frozen { retiring with memPort := { retiring.memPort with stopped := true } }
       s.memPort.access = some (streamAccess .retire true 0x08104 0)
        ∧ ∃ t, exec (.memoryAccessComplete none) s = .next t ∧ t.memPort.stopped = true)
    ∧ completionFlaw (.copyComplete none) = some none ∧ ∀ g, Instr.copyComplete none ≠ .hostAccessComplete g := by
  refine ⟨⟨rfl, rfl, rfl, ⟨?_, ?_, by decide⟩, _, rfl, by decide⟩, ⟨_, rfl, by decide⟩, ⟨_, rfl, by decide⟩,
    ⟨rfl, _, rfl, by decide⟩, rfl, fun _ h => by cases h⟩
  · intro a ha _
    cases ha
    exact ⟨by decide, by decide⟩
  · intro st hst
    cases hst

/-- A blocked write as it is recorded. -/
def blocked (addr : Addr) (count : Nat) : Event := .writeBlocked .fixed addr (some 2) none count

theorem witness_PostingIsSettledByThreeTests :
    (let s : State := { guarding with mask := 0 }
     s.mask.getLsbD (blocked 0x0013F 1).maskBit = false)
    ∧ (let s : State := { guarding with events := [{ event := blocked 0x00100 255, lost := false }] }
       s.mask.getLsbD (blocked 0x0013F 1).maskBit = true
        ∧ s.events = [] ++ [{ event := .writeBlocked .fixed 0x00100 (some 2) none 255, lost := false }]) := by decide

/-- A queue of INSTALLED records. -/
def installs (n : Nat) : List EventRec := List.replicate n { event := .installed 1, lost := false }

theorem witness_PostingIsSettledByThreeTests_appended_or_lost (n : Nat) :
    guarding.mask.getLsbD (blocked 0x0013F 1).maskBit = true
    ∧ (∀ q reason addr region domain count addr' domain' count',
        ¬ (installs n = q ++ [{ event := Event.writeBlocked reason addr region domain count, lost := false }]
          ∧ blocked 0x0013F 1 = .writeBlocked reason addr' region domain' count'))
    ∧ (installs 15).length < 16 ∧ 16 ≤ (installs 16).length := by
  refine ⟨by decide, ?_, by decide, by decide⟩
  rintro q reason addr region domain count addr' domain' count' ⟨h, -⟩
  have hm : ({ event := Event.writeBlocked reason addr region domain count, lost := false } : EventRec)
      ∈ installs n := by rw [h]; simp
  have := List.eq_of_mem_replicate hm
  simp at this

/-- A frame is being received. -/
def receiving : State := { guarding with link := { guarding.link with receiving := true } }

theorem witness_FrameBytesCarryEachRequest :
    (requestBytes (.abort 7 0) = some [0x20, 7, 0] ∧ receiving.Listening ∧ receiving.link.receiving = true
      ∧ ([0x20, 7, 0] : List Byte).length + (List.replicate 26 (0xFF : Byte)).length ≤ 29)
    ∧ (2 < (3 : Byte).toNat ∧ 4 + (List.replicate 25 (0xFF : Byte)).length ≤ 29)
    ∧ ((4 : Byte) ≠ 2 ∧ (4 : Byte) ≠ 3 ∧ 3 + (List.replicate 26 (0xFF : Byte)).length ≤ 29)
    ∧ (inMode .frozen receiving).Listening ∧ (inMode .frozen receiving).mode = .frozen
    ∧ (inMode .unconfigured receiving).mode = .unconfigured ∧ receiving.mode = .guarding :=
  ⟨⟨rfl, ⟨rfl, rfl, rfl⟩, rfl, by decide⟩, by decide, by decide, ⟨rfl, rfl, rfl⟩, rfl, rfl, rfl⟩

theorem witness_FaultyFramesAreAnswered :
    receiving.Listening ∧ receiving.link.receiving = true
    ∧ ([0x06, 0x07] : List Byte) = 0x06 :: [0x07]
    ∧ (∀ p ∈ ([(0x05, 4), (0x10, 2)] : List (Byte × Nat)), p.1 ≠ 0x06)
    ∧ ((0x02, 4) : Byte × Nat) ∈ ([(0x01, 2), (0x02, 4)] : List (Byte × Nat)) ∧ ([0x02, 0x07, 0x00] : List Byte).length < 4 :=
  ⟨⟨rfl, rfl, rfl⟩, rfl, rfl, by decide, by decide, by decide⟩

theorem witness_FrameBeginLatchesTheOutput :
    (guarding.Listening ∧ guarding.link.receiving = false ∧ 1 ≤ 29 ∧ 7 < 8)
    ∧ (∃ t, exec .tick receiving = .next t ∧ t.link.receiving = true)
    ∧ (receiving.Listening ∧ receiving.link.receiving = true ∧ ∃ t, exec (.frameEnd [0x00, 7] 0) receiving = .next t)
    ∧ (let s : State := { guarding with resetAsserted := true, resetTaken := true }
       s.powered = true ∧ s.resetTaken = true ∧ s.link.receiving = false ∧ requestBytes (.nop 7) = some [0x00, 7]) :=
  ⟨⟨listening_guarding, rfl, by decide, by decide⟩, ⟨_, rfl, by decide⟩, ⟨⟨rfl, rfl, rfl⟩, rfl, _, rfl⟩, by decide⟩

theorem witness_GetDomainReportsTheRecord :
    opened.Listening ∧ (3 < (4 : Byte).toNat) ∧ ((3 : Byte).toNat ≤ 3 ∧ 127 < (128 : Byte).toNat)
    ∧ ((3 : Byte).toNat = (3 : Fin 4).val ∧ (127 : Byte).toNat ≤ 127) := ⟨listening_opened, by decide⟩

theorem witness_TablesAreReadEntryByEntry :
    opened.Listening ∧ opened.pool[(3 : Byte).toNat]? = some .freeEntry ∧ opened.pool.length ≤ (4 : Byte).toNat
    ∧ (15 : Byte).toNat = (15 : Fin 16).val ∧ 15 < (16 : Byte).toNat ∧ (3 : Byte).toNat = (3 : Fin 4).val
    ∧ 3 < (4 : Byte).toNat ∧ (1 : Byte) ≠ 0
    ∧ (∀ r : Fin 16, ledger.regions[r].active = true → ledger.regions[r].size ≤ 64)
    ∧ (∃ r : Fin 16, ledger.regions[r].active = true ∧ ledger.regions[r].size = 64) := by
  refine ⟨listening_opened, by decide, by decide, by decide, by decide, by decide, by decide, by decide, by decide, 3, by decide⟩

theorem witness_StagingTakesCheckedEntries :
    guarding.Listening ∧ guarding.mode = .guarding
    ∧ ((0x7FFFF : BitVec 24).toNat ≤ 0x7FFFF ∧ 1 ≤ (64 : Byte).toNat ∧ (64 : Byte).toNat ≤ 64 ∧ 1 ≤ (4096 : Word).toNat
        ∧ (4096 : Word).toNat ≤ 4096 ∧ (0xB2 : Byte).toNat % 4 ≠ 3)
    ∧ ((0xB2 : Byte).toNat % 4 = RegionKind.fixed.code ∧ (0xB2 : Byte).toNat / 16 % 4 = (3 : Fin 4).val
        ∧ (15 : Byte).toNat = (15 : Fin 16).val)
    ∧ 15 < (16 : Byte).toNat ∧ ¬ ((0x80000 : BitVec 24).toNat ≤ 0x7FFFF)
    ∧ ((3 : Byte).toNat = (3 : Fin 4).val ∧ 1 ≤ (128 : Byte).toNat ∧ (128 : Byte).toNat ≤ 128
        ∧ (0xE3 : Byte).toNat % 4 = GuardMode.change.code)
    ∧ 3 < (4 : Byte).toNat ∧ ¬ ((129 : Byte).toNat ≤ 128)
    ∧ (264 ≤ (264 : BitVec 24).toNat ∧ (264 : BitVec 24).toNat ≤ 0x80000) ∧ ¬ (264 ≤ (263 : BitVec 24).toNat) :=
  ⟨listening_guarding, by decide⟩

theorem witness_RequestsAreRefusedByMode :
    requestBytes (.resume 7 0) = some [0x21, 7, 0] ∧ (inMode .frozen guarding).Listening
    ∧ (inMode .frozen guarding).mode = .frozen ∧ changesThePart (.resume 7 0) = true
    ∧ (inMode .unconfigured guarding).Listening ∧ (inMode .unconfigured guarding).mode = .unconfigured
    ∧ steersADomain (.resume 7 0) = true := ⟨rfl, ⟨rfl, rfl, rfl⟩, rfl, rfl, ⟨rfl, rfl, rfl⟩, rfl, rfl⟩

/-- The part is quiet: the hypothesis of INSTALL and SET_MODE. -/
def quietState (s : State) : Prop :=
  (∀ d, (s.dom d).state = .disabled ∨ (s.dom d).state = .idle ∨ (s.dom d).state = .fenced)
    ∧ ∀ e ∈ s.pool, e.state = .free ∨ e.state = .bad

theorem witness_InstallIsCheckedThenAccepted :
    (opened.Listening ∧ opened.mode = .guarding ∧ ¬ quietState opened)
    ∧ (guarding.Listening ∧ guarding.mode = .guarding ∧ quietState guarding
        ∧ validate (logStartOf guarding.loc) guarding.staging = some { detail := .outOfRange, first := 0, second := 0 })
    ∧ (let s : State := { guarding with staging := ledger }
       s.Listening ∧ s.mode = .guarding ∧ quietState s ∧ validate (logStartOf s.loc) s.staging = none ∧ s.NoCycleWaits) := by
  refine ⟨⟨listening_opened, rfl, ?_⟩, ⟨listening_guarding, rfl, ?_, ?_⟩, ⟨⟨rfl, rfl, rfl⟩, rfl, ?_, ?_, fun _ => rfl⟩⟩
  all_goals first | decide | (unfold quietState; decide)

theorem witness_AbortIsSettledByTheDomainState :
    (opened.Listening ∧ opened.mode = .guarding ∧ (0 : Byte).toNat = (0 : Fin 4).val ∧ (opened.dom 0).state = .opened
      ∧ (opened.dom 0).members ≠ [] ∧ (∀ i ∈ (opened.dom 0).members, (opened.slot i).state ≠ .copying)
      ∧ opened.port.state ≠ .deciding ∧ opened.NoCycleWaits)
    ∧ (guarding.dom 0).state = .idle ∧ ((inState .committing guarding).dom 0).state = .committing
    ∧ ((inState .failed guarding).dom 0).state = .failed ∧ (guarding.dom 3).state = .disabled ∧ 3 < (4 : Byte).toNat :=
  ⟨⟨listening_opened, rfl, rfl, by decide, by decide, by decide, by decide, fun _ => rfl⟩, by decide, by decide, by decide,
    by decide, by decide⟩

theorem witness_ResumeReleasesAFencedDomain :
    (inMode .starting guarding).Listening ∧ (inMode .unconfigured guarding).Listening
    ∧ (inState .fenced guarding).Listening ∧ (inState .fenced guarding).mode = .guarding ∧ 3 < (4 : Byte).toNat
    ∧ (0 : Byte).toNat = (0 : Fin 4).val ∧ ((inState .fenced guarding).dom 0).state = .fenced
    ∧ (3 : Byte).toNat = (3 : Fin 4).val ∧ (guarding.dom 3).state = .disabled
    ∧ ((inState .rolling guarding).dom 0).state = .rolling :=
  ⟨⟨rfl, rfl, rfl⟩, ⟨rfl, rfl, rfl⟩, ⟨rfl, rfl, rfl⟩, by decide⟩

theorem witness_SetModeNeedsAQuietPart :
    (guarding.Listening ∧ guarding.mode = .guarding ∧ quietState guarding ∧ ∀ e ∈ guarding.pool, e.state ≠ .bad)
    ∧ ((inMode .bypass opened).Listening ∧ (inMode .bypass opened).mode = .bypass ∧ ¬ quietState (inMode .bypass opened))
    ∧ (let s : State := { guarding with pool := [.badEntry] }
       s.Listening ∧ s.mode = .guarding ∧ ¬ (∀ e ∈ s.pool, e.state ≠ .bad)) := by
  refine ⟨⟨listening_guarding, rfl, ?_, by decide⟩, ⟨⟨rfl, rfl, rfl⟩, rfl, ?_⟩, ⟨rfl, rfl, rfl⟩, rfl, by decide⟩
  all_goals (unfold quietState; decide)

theorem witness_TakeEventRemovesTheOldest :
    (guarding.Listening ∧ guarding.events = [])
    ∧ (let s : State := { guarding with events := [{ event := blocked 0x0013F 255, lost := true }] }
       s.Listening ∧ s.events = { event := .writeBlocked .fixed 0x0013F (some 2) none 255, lost := true } :: []) :=
  ⟨⟨listening_guarding, rfl⟩, ⟨rfl, rfl, rfl⟩, rfl⟩

theorem witness_SetEventsReplacesTheMask :
    (guarding.Listening ∧ guarding.mode = .guarding ∧ (0x0200 : Word).extractLsb' 9 7 ≠ 0
      ∧ (0x01FE : Word).extractLsb' 9 7 = 0 ∧ (0x01FE : Word).getLsbD (Event.committed 0 0 0).maskBit = false)
    ∧ (State.reset.Listening ∧ State.reset.mode = .starting)
    ∧ (guarding.powered = true ∧ guarding.resetAsserted = false ∧ guarding.mode ≠ .frozen
      ∧ ∃ t, exec (.resetAssert { loc := 0, mt := 0 }) guarding = .next t) :=
  ⟨⟨listening_guarding, by decide⟩, ⟨⟨rfl, rfl, rfl⟩, rfl⟩, by decide, by decide, by decide, _, rfl⟩

theorem witness_RestartKeepsTheManagementState :
    (guarding.Listening ∧ guarding.mode = .guarding ∧ guarding.NoCycleWaits ∧ guarding.memPort.access = none
      ∧ guarding.resetAsserted = false)
    ∧ (retiring.Listening ∧ retiring.mode = .guarding ∧ retiring.NoCycleWaits
      ∧ retiring.memPort.access = some (streamAccess .retire true 0x08104 0))
    ∧ (tagging.Listening ∧ tagging.mode = .guarding ∧ tagging.NoCycleWaits ∧ tagging.port.state = .deciding)
    ∧ (hostBesideRetire.Listening ∧ hostBesideRetire.NoCycleWaits ∧ hostBesideRetire.port.state = .atMemory) :=
  ⟨⟨listening_guarding, rfl, fun _ => rfl, rfl, rfl⟩, ⟨⟨rfl, rfl, rfl⟩, rfl, fun _ => rfl, rfl⟩,
    ⟨⟨rfl, rfl, rfl⟩, rfl, fun _ => rfl, rfl⟩, ⟨rfl, rfl, rfl⟩, fun _ => rfl, rfl⟩

theorem witness_SupplyLeavesOnlyTheMemory : opened.powered = true := rfl

/-- SETTLE at a count. -/
def settling (count : Nat) (pfw reset : Bool) : State :=
  { State.reset with
    pfwAsserted := pfw, resetAsserted := reset, recovery := { State.reset.recovery with settle := count } }

theorem witness_TicksRunTheTimersAndSettle :
    (opened.powered = true ∧ opened.NoCycleWaits ∧ opened.mode = .guarding
      ∧ ∀ d, (opened.dom d).state = .opened → (opened.dom d).timer ≠ 1)
    ∧ ((inMode .bypass guarding).powered = true ∧ (inMode .bypass guarding).NoCycleWaits
      ∧ (inMode .bypass guarding).mode = .bypass)
    ∧ (∀ count pfw reset, (settling count pfw reset).powered = true ∧ (settling count pfw reset).mode = .starting
      ∧ (settling count pfw reset).recovery.phase = .settle ∧ (settling count pfw reset).NoCycleWaits)
    ∧ (settling 1 true false).pfwAsserted = true ∧ (settling 0 false false).recovery.settle = 0
    ∧ (settling 1 false true).resetAsserted = true ∧ (settling 1 false true).recovery.settle = 1
    ∧ (settling 1 false false).resetAsserted = false ∧ (settling 1 false false).recovery.pos = .idle
    ∧ (settling 1 false false).memPort.access = none ∧ (settling 1 false false).standing = [] :=
  ⟨⟨rfl, fun _ => rfl, rfl, by decide⟩, ⟨rfl, fun _ => rfl, rfl⟩, fun _ _ _ => ⟨rfl, rfl, rfl, fun _ => rfl⟩, by decide⟩

/-- Domain 0 OPEN with one tick left. -/
def expiring : State := opened.setDom 0 { opened.dom 0 with timer := 1 }

theorem witness_DeadlineExpiryAborts :
    (expiring.powered = true ∧ expiring.mode = .guarding ∧ expiring.NoCycleWaits)
    ∧ ((expiring.dom 0).timer = 1 ∧ (expiring.dom 0).state = .opened ∧ (expiring.dom 0).members ≠ []
      ∧ (∀ i ∈ (expiring.dom 0).members, (expiring.slot i).state ≠ .copying)
      ∧ (∀ e, e ≠ 0 → (expiring.dom e).state = .opened → (expiring.dom e).timer ≠ 1) ∧ expiring.port.state ≠ .deciding)
    ∧ (let s : State := deciding 4 1 5 .slot expiring
       s.NoCycleWaits ∧ s.port.NoneFollows ∧ s.port.state = .deciding ∧ s.port.disp = some .journal ∧ s.port.stage = .slot
        ∧ s.port.cls = some (.hit { region := 0, record := 4, offset := 1, kind := .journal, domain := 0 })) :=
  ⟨⟨rfl, rfl, fun _ => rfl⟩, by decide, fun _ => rfl, fun _ => rfl, by decide⟩

theorem witness_ResetIsTaken :
    (∀ m, (inMode m tagging).powered = true ∧ (inMode m tagging).resetAsserted = false)
    ∧ (inMode .frozen tagging).mode = .frozen
    ∧ ((settling 1 false false).mode = .starting ∧ (settling 1 false false).recovery.phase = .settle)
    ∧ (tagging.mode ≠ .frozen ∧ ¬ (tagging.mode = .starting ∧ tagging.recovery.phase = .settle)
      ∧ tagging.port.state = .deciding ∧ tagging.memPort.access = some (streamAccess .copy true 0x0818C 0xA600))
    ∧ (hostBesideRetire.port.state = .atMemory
      ∧ hostBesideRetire.memPort.access = some (streamAccess .retire true 0x08104 0))
    ∧ (withAccess (hostReadAt 0x00080) hostBesideRetire).memPort.access = some (hostReadAt 0x00080)
    ∧ (guarding.mode = .guarding ∧ guarding.memPort.access = none) :=
  ⟨fun _ => ⟨rfl, rfl⟩, by decide⟩

/-- LOAD not yet begun. -/
def beforeLoad (reset : Bool) : State :=
  { starting .load .idle false 0 0 with
    resetAsserted := reset, resetTaken := reset, memPort := { guarding.memPort with stopped := true } }

theorem witness_LoadBeginsWhenNothingHoldsIt :
    ((beforeLoad true).powered = true ∧ (beforeLoad true).NoCycleWaits ∧ (beforeLoad true).resetAsserted = true
      ∧ (beforeLoad true).mode = .starting ∧ (beforeLoad true).recovery.phase = .load
      ∧ (beforeLoad true).recovery.pos = .idle ∧ (beforeLoad true).memPort.access = none ∧ (beforeLoad true).standing = [])
    ∧ (let s : State := { inMode .frozen opened with pfwAsserted := true }
       s.powered = true ∧ s.NoCycleWaits ∧ s.pfwAsserted = true ∧ s.mode = .frozen ∧ s.resetAsserted = false
        ∧ s.memPort.access = none ∧ s.port.state = .vacant)
    ∧ (let s : State := { inMode .frozen opened with pfwAsserted := true, resetAsserted := true }
       s.powered = true ∧ s.NoCycleWaits ∧ s.pfwAsserted = true ∧ s.mode = .frozen ∧ s.resetAsserted = true)
    ∧ (let a : Access := { streamAccess .copy true 0x08190 5 with orphan := true }
       let s : State := withAccess a (beforeLoad false)
       s.powered = true ∧ s.NoCycleWaits ∧ s.memPort.access = some a ∧ a.claimant ≠ .host ∧ a.orphan = true
        ∧ s.mode = .starting ∧ s.recovery.phase = .load ∧ s.recovery.pos = .idle ∧ s.resetAsserted = false
        ∧ s.standing = []) := by
  unfold State.NoCycleWaits
  decide

/-- RESTORE clearing the tag of slot 0, of domain 0. -/
def clearingTag : State :=
  starting .restore (.restore { slot := 0, domain := 0, epoch := 0x42, region := 0, record := 3, size := 6 } .tag false)
    true 0x08104 0

/-- The part after PFW#. -/
def frozenOf (s : State) : State := inMode .frozen { s with pfwAsserted := true, memPort := { s.memPort with stopped := true } }

theorem witness_PowerFailFreezes :
    (∀ m, (inMode m tagging).powered = true ∧ (inMode m tagging).pfwAsserted = false)
    ∧ ((settling 1 false false).mode = .starting ∧ (settling 1 false false).recovery.phase = .settle)
    ∧ (¬ (tagging.mode = .starting ∧ tagging.recovery.phase = .settle) ∧ tagging.port.state = .deciding)
    ∧ (withAccess (hostReadAt 0x00080) hostBesideRetire).port.state = .atMemory
    ∧ (let a := streamAccess .recovery true 0x08104 0
       let s := frozenOf clearingTag
       let back := verifying (withAccess (streamAccess .recovery false 0x08104 0) s)
       s.powered = true ∧ s.mode = .frozen ∧ s.memPort.stopped = true ∧ s.NoCycleWaits ∧ s.memPort.access = some a
        ∧ a.claimant = .recovery ∧ a.orphan = false
        ∧ s.recovery.pos = .restore { slot := 0, domain := 0, epoch := 0x42, region := 0, record := 3, size := 6 } .tag false
        ∧ State.WordDone s.layout.verify false none a 0 s
        ∧ State.WordFails back.layout.verify true (some 0xA600) (streamAccess .recovery false 0x08104 0) 0 back)
    ∧ { streamAccess .copy true 0x08190 5 with orphan := true }.orphan = true := by
  refine ⟨fun _ => ⟨rfl, rfl⟩, by decide, by decide, by decide, ?_, rfl⟩
  unfold State.NoCycleWaits State.WordDone State.WordFails State.wordRead
  decide

/-- R124, R133: a tag clear of RESTORE that finishes in FROZEN leaves its domain in the restored domains set. -/
theorem test_frozen_tag_clear_is_remembered :
    (after (.memoryAccessComplete none) (after (.pfwAssert { loc := 1, mt := 0 }) clearingTag)).recovery.restoredDomains[0] = true
    ∧ (after (.memoryAccessComplete none) (after (.pfwAssert { loc := 1, mt := 0 }) clearingTag)).mode = .frozen := by decide

theorem witness_ReadsPassOrAreRedirected :
    (guarding.PortOpen ∧ guarding.Settled ∧ guarding.memPort.access = none ∧ guarding.memPort.stopped = false)
    ∧ (opened.PortOpen ∧ opened.mode = .guarding
      ∧ classify opened 0x01013 = .hit { region := 0, record := 3, offset := 1, kind := .journal, domain := 0 }
      ∧ opened.indexed 0 3 = some 0 ∧ (opened.slot 0).state = .active)
    ∧ (classify opened 0x00080 = .uncovered ∧ classify opened 0x09FFF = .logArea ∧ opened.indexed 0 4 = none
      ∧ classify opened 0x0013F = .hit { region := 2, record := 63, offset := 0, kind := .fixed, domain := 0 })
    ∧ (((rolling (.read 0) false 0x0814C 0).slot 0).state = .restoring ∧ (tagging.slot 2).state = .copying
      ∧ (inMode .bypass guarding).mode ≠ .guarding) := by
  refine ⟨⟨⟨rfl, rfl⟩, ?_, rfl, rfl⟩, ⟨⟨rfl, rfl⟩, by decide⟩, by decide, by decide⟩
  unfold State.Settled
  decide

theorem witness_WritesPassWithoutJournalWork :
    (guarding.PortOpen ∧ guarding.Settled ∧ guarding.mode = .guarding ∧ ({ low := false, high := false } : Lanes).low = false)
    ∧ (classify guarding 0x01258 = .uncovered ∧ ({ low := true, high := false } : Lanes).low = true)
    ∧ ((inMode .bypass guarding).PortOpen ∧ (inMode .bypass guarding).mode = .bypass
      ∧ classify (inMode .bypass guarding) 0x0A000 ≠ .logArea)
    ∧ ((inMode .unconfigured guarding).PortOpen ∧ (inMode .unconfigured guarding).mode = .unconfigured) := by
  refine ⟨⟨⟨rfl, rfl⟩, ?_, rfl, rfl⟩, by decide, ⟨⟨rfl, rfl⟩, by decide⟩, ⟨rfl, rfl⟩, rfl⟩
  unfold State.Settled
  decide

theorem witness_RefusedWritesAreReported :
    (guarding.PortOpen ∧ guarding.mode = .guarding ∧ both.low = true ∧ classify guarding 0x08000 = .logArea
      ∧ ∀ d, ¬ ((guarding.cfg d).strict = true ∧ (guarding.dom d).state = .opened))
    ∧ (classify guarding 0x0013F = .hit { region := 2, record := 63, offset := 0, kind := .fixed, domain := 0 })
    ∧ ((inState .rolling guarding).PortOpen ∧ ((inState .rolling guarding).dom 0).state = .rolling
      ∧ ((inState .fenced guarding).dom 0).state = .fenced ∧ ((inState .failed guarding).dom 0).state = .failed
      ∧ classify guarding 0x01256 = .hit { region := 0, record := 99, offset := 4, kind := .journal, domain := 0 }) :=
  ⟨⟨⟨rfl, rfl⟩, by decide⟩, by decide, ⟨rfl, rfl⟩, by decide⟩

/-- Domains 0 and 1 OPEN and strict. -/
def twoStrict : State :=
  { opened with
    layout := { ledger with domains := ledger.domains.set 1 { ledger.domains[1] with strict := true } }
    domains := opened.domains.set 1 { idleAt 0 with state := .opened, members := [2] }
    pool := [member 3, member 0, { member 0 with domain := 1, region := 3 }, .freeEntry] }

theorem witness_StrayWritesAbortStrictDomains :
    twoStrict.PortOpen ∧ twoStrict.mode = .guarding ∧ both.low = true
    ∧ (∀ d : Fin 4, d.val < 2 ↔ ((twoStrict.cfg d).strict && decide ((twoStrict.dom d).state = .opened)) = true)
    ∧ (∀ d : Fin 4, d.val < 2 →
        (twoStrict.dom d).members ≠ [] ∧ ∀ i ∈ (twoStrict.dom d).members, (twoStrict.slot i).state ≠ .copying)
    ∧ classify twoStrict 0x09FFF = .logArea
    ∧ classify twoStrict 0x00100 = .hit { region := 2, record := 0, offset := 0, kind := .fixed, domain := 0 } :=
  ⟨⟨rfl, rfl⟩, by decide⟩

theorem witness_JoiningRecordTakesTheNextSlot :
    (guarding.PortOpen ∧ guarding.Settled ∧ guarding.mode = .guarding ∧ both.low = true ∧ (guarding.dom 0).state = .idle
      ∧ classify guarding 0x01256 = .hit { region := 0, record := 99, offset := 4, kind := .journal, domain := 0 }
      ∧ guarding.freeQueue = 0 :: [1, 2, 3] ∧ 0 < guarding.pool.length)
    ∧ (opened.PortOpen ∧ (opened.dom 0).state = .opened ∧ (opened.dom 0).members.length < (opened.cfg 0).quota
      ∧ opened.indexed 0 99 = none ∧ opened.freeQueue = 2 :: [3]) := by
  refine ⟨⟨⟨rfl, rfl⟩, ?_, by decide⟩, ⟨rfl, rfl⟩, by decide⟩
  unfold State.Settled
  decide

theorem witness_MemberWritesAndCommitAttempts :
    (opened.PortOpen ∧ opened.Settled ∧ opened.mode = .guarding ∧ both.low = true ∧ (opened.dom 0).state = .opened)
    ∧ (classify opened 0x01013 = .hit { region := 0, record := 3, offset := 1, kind := .journal, domain := 0 }
      ∧ opened.indexed 0 3 = some 0 ∧ (opened.slot 0).state = .active ∧ (opened.cfg 0).commitAddr ≠ 0x01013)
    ∧ (classify opened 0x01000 = .hit { region := 0, record := 0, offset := 0, kind := .journal, domain := 0 }
      ∧ opened.indexed 0 0 = some 1 ∧ (opened.slot 1).state = .active
      ∧ (opened.cfg 0).enabled = true ∧ (opened.cfg 0).commitAddr = 0x01000)
    ∧ ((opened.dom 0).backlog = 0 ∧ (opened.cfg 0).guardMode = .advance
      ∧ (8 : Word) = Memory.word opened.memory (opened.slotAddr 1 4) + 1
      ∧ ¬ ((9 : Word) = Memory.word opened.memory (opened.slotAddr 1 4) + 1)
      ∧ (opened.dom 0).members ≠ [] ∧ ∀ j ∈ (opened.dom 0).members, (opened.slot j).state ≠ .copying)
    ∧ ((opened.setDom 0 { opened.dom 0 with backlog := 1 }).dom 0).backlog ≠ 0 := by
  refine ⟨⟨⟨rfl, rfl⟩, ?_, by decide⟩, by decide, by decide, by decide, by decide⟩
  unfold State.Settled
  decide

theorem witness_JoinWithoutASlotWaitsOrAborts :
    (let s : State := { guarding with freeQueue := [], pool := [{ member 3 with state := .retiring }] }
     s.PortOpen ∧ s.mode = .guarding ∧ both.low = true ∧ (s.dom 0).state = .idle ∧ s.freeQueue = []
      ∧ (∃ e ∈ s.pool, e.state = .retiring ∨ e.state = .restoring)
      ∧ classify s 0x01000 = .hit { region := 0, record := 0, offset := 0, kind := .journal, domain := 0 })
    ∧ (let s : State := { guarding with freeQueue := [], pool := [.badEntry] }
       s.PortOpen ∧ (s.dom 0).state = .idle ∧ (s.dom 0).members = [] ∧ s.freeQueue = []
        ∧ ¬ ∃ e ∈ s.pool, e.state = .retiring ∨ e.state = .restoring)
    ∧ (let s : State := { opened with
         layout := { ledger with domains := ledger.domains.set 0 { ledger.domains[0] with quota := 2 } } }
       s.PortOpen ∧ (s.dom 0).state = .opened ∧ s.indexed 0 4 = none ∧ (s.cfg 0).quota ≤ (s.dom 0).members.length
        ∧ (s.dom 0).members ≠ [] ∧ ∀ j ∈ (s.dom 0).members, (s.slot j).state ≠ .copying)
    ∧ (let s : State := { opened with freeQueue := [], pool := [member 3, member 0] }
       s.PortOpen ∧ (s.dom 0).state = .opened ∧ s.indexed 0 4 = none ∧ (s.dom 0).members.length < (s.cfg 0).quota
        ∧ (s.dom 0).members ≠ [] ∧ (∀ j ∈ (s.dom 0).members, (s.slot j).state ≠ .copying) ∧ s.freeQueue = []
        ∧ ¬ ∃ e ∈ s.pool, e.state = .retiring ∨ e.state = .restoring) :=
  ⟨⟨⟨rfl, rfl⟩, by decide⟩, ⟨⟨rfl, rfl⟩, by decide⟩, ⟨⟨rfl, rfl⟩, by decide⟩, ⟨rfl, rfl⟩, by decide⟩

theorem witness_ModesHoldArrivingCycles :
    ((inMode .frozen guarding).powered = true ∧ (inMode .frozen guarding).port.state = .vacant
      ∧ (inMode .frozen guarding).loadReady = false ∧ (inMode .frozen guarding).mode = .frozen)
    ∧ ((installing (.tags 0) true 0x08104 0).port.state = .vacant
      ∧ (installing (.tags 0) true 0x08104 0).loadReady = false ∧ (installing (.tags 0) true 0x08104 0).mode = .installing)
    ∧ tagging.port.state ≠ .vacant := by decide

/-- The Port in a state, a new cycle waiting. -/
def portAt (state : PortState) (early : Bool) (waiting : Option BusCycle) (s : State) : State :=
  { s with port := { s.port with state := state, early := early, waiting := waiting } }

theorem witness_CycleEndFreesThePort :
    (let s := portAt .closing false none guarding
     s.powered = true ∧ s.port.state = .closing ∧ s.loadReady = false ∧ s.port.waiting = none)
    ∧ (let s := portAt .held false (some (writeCycle 0x01000 both false 5)) (inMode .frozen guarding)
       s.port.state = .held ∧ s.port.early = false ∧ s.loadReady = false ∧ s.mode.holds true = true ∧ s.Settled)
    ∧ (let s := portAt .closing false (some (readCycle 0x00080 both false)) guarding
       s.Settled ∧ s.port.waiting = some (readCycle 0x00080 both false) ∧ s.mode ≠ .starting ∧ s.mode ≠ .frozen
        ∧ classify s 0x00080 = .uncovered)
    ∧ (portAt .deciding false none tagging).port.early = false
    ∧ ((portAt .deciding true none tagging).port.state = .deciding ∧ (portAt .deciding true none tagging).port.early = true)
    ∧ guarding.port.state = .vacant := by
  unfold State.Settled
  decide

/-- The host's access in progress. -/
def hostAt (a : Access) (p : HostPort) : State := withAccess a { guarding with port := p }

theorem witness_HostAccessCompletes :
    (let s := hostAt (hostReadAt 0x00080) (.latched .atMemory (readCycle 0x00080 both false) (some .uncovered) (some .pass) .none)
     s.InProgress .host (hostReadAt 0x00080) ∧ s.mode ≠ .starting ∧ s.port.NoneFollows ∧ s.port.state = .atMemory
      ∧ s.port.cycle.write = false ∧ s.port.early = false)
    ∧ (let c := writeCycle 0x00080 both false 5
       let s := hostAt (hostStoreOf c) (.latched .atMemory c (some .uncovered) (some .pass) .none)
       s.InProgress .host (hostStoreOf c) ∧ s.port.cycle.write = true ∧ (hostStoreOf c).write = true)
    ∧ (let s := withAccess (hostStoreOf (writeCycle 0x01013 both false 5)) (deciding 3 1 5 .store opened)
       s.InProgress .host (hostStoreOf (writeCycle 0x01013 both false 5)) ∧ s.port.state = .deciding ∧ s.port.stage = .store)
    ∧ (let s := withAccess (hostStoreOf (writeCycle 0x01000 both false 8)) (deciding 0 0 8 .commitStore (inState .committing opened))
       s.InProgress .host (hostStoreOf (writeCycle 0x01000 both false 8)) ∧ s.port.stage = .commitStore
        ∧ s.port.disp = some .journal ∧ s.memPort.stopped = false ∧ s.copy = none
        ∧ s.port.cls = some (.hit { region := 0, record := 0, offset := 0, kind := .journal, domain := 0 })) := by
  unfold State.InProgress HostPort.NoneFollows
  decide

/-- The copy of the witness states with verify on and the read-back in progress. -/
def copyBack (pos : CopyPos) (addr : Addr) : State :=
  verifying { copying pos false addr 0 with copy := some { slot := 2, pos := pos, back := true, sum := 0 } }

theorem witness_CopyStreamWorksWordByWord :
    (let s := copying (.read 0) false 0x01018 0
     s.mode ≠ .starting ∧ s.NoCycleWaits ∧ s.InProgress .copy (streamAccess .copy false 0x01018 0)
      ∧ s.copy = some { slot := 2, pos := .read 0, back := false, sum := 0 }
      ∧ (s.layout.regions[(s.slot 2).region]).kind ≠ .once ∧ s.port.state = .deciding ∧ s.port.stage = .copy
      ∧ s.memPort.stopped = false)
    ∧ (∀ pos ∈ [CopyPos.image 0 5, .image 5 5, .epoch, .locator, .check], (copying pos true 0 5).layout.verify = false
      ∧ ∃ c, (copying pos true 0 5).copy = some c ∧ c.pos = pos
        ∧ State.WordDone false c.back none (streamAccess .copy true 0 5) 5 (copying pos true 0 5))
    ∧ (∀ pos ∈ [CopyPos.image 0 5, .epoch, .locator, .check, .tag],
        (verifying (copying pos true 0 5)).InProgress .copy (streamAccess .copy true 0 5)
        ∧ (verifying (copying pos true 0 5)).layout.verify = true ∧ (streamAccess .copy true 0 5).write = true
        ∧ (verifying (copying pos true 0 5)).copy = some { slot := 2, pos := pos, back := false, sum := 0 })
    ∧ ((copyBack (.image 0 0) 0x08190).InProgress .copy (streamAccess .copy false 0x08190 0)
      ∧ State.WordDone true true none (streamAccess .copy false 0x08190 0) 0 (copyBack (.image 0 0) 0x08190))
    ∧ (let a : Access := { streamAccess .copy true 0x08190 5 with orphan := true }
       let s := withAccess a (inMode .frozen opened)
       s.powered = true ∧ s.memPort.access = some a ∧ a.orphan = true ∧ a.claimant ≠ .host ∧ s.NoCycleWaits) := by
  refine ⟨⟨by decide, by unfold State.NoCycleWaits; decide, by unfold State.InProgress; decide, by decide⟩, ?_, ?_,
    ⟨by unfold State.InProgress; decide, by unfold State.WordDone State.wordRead; decide⟩,
    by unfold State.NoCycleWaits; decide⟩
  · intro pos _
    exact ⟨rfl, _, rfl, rfl, Or.inl ⟨rfl, rfl, rfl⟩⟩
  · intro pos _
    exact ⟨⟨rfl, rfl, rfl, rfl⟩, rfl, rfl, rfl⟩

theorem guarding_not_starting : Mode.guarding ≠ .starting := by decide

theorem guarding_not_frozen : Mode.guarding ≠ .frozen := by decide

/-- The hypotheses common to the clauses, for the copy into slot 2 of domain 0. -/
def copyEndsAt (s : State) (a : Access) (c : CopyStream) (h : Hit) : Prop :=
  s.InProgress .copy a ∧ s.mode ≠ .starting ∧ s.mode ≠ .frozen ∧ s.copy = some c ∧ s.port.state = .deciding
    ∧ s.port.disp = some .journal ∧ s.port.cls = some (.hit h) ∧ h.kind ≠ .fixed ∧ (s.slot c.slot).domain = h.domain
    ∧ s.port.NoneFollows

/-- The last write of the copy of record 0, the commit record, for a commit attempt. -/
def taggingCommit (d : Runtime) : State :=
  { deciding 0 0 8 .copy tagging with
    pool := [member 3, .freeEntry, { member 0 with state := .copying }, .freeEntry]
    slotIndex := [{ region := 0, record := 3, slot := 0 }, { region := 0, record := 0, slot := 2 }]
    domains := opened.domains.set 0 d }

/-- Domain 0 OPEN with members 0 and 2. -/
def openPair : Runtime := { idleAt 0x41 with state := .opened, members := [0, 2] }

/-- A copy of a ONCE record that reads a word not blank. -/
def copyingOnce (d : Runtime) : State :=
  let s := copying (.read 3) false 0x02003 0
  { s with
    pool := s.pool.set 2 { member 0 with state := .copying, region := 1 }
    domains := s.domains.set 0 d }

/-- A restore stream whose slot is to be chosen. -/
def idleRestore : RestoreStream :=
  { epoch := 0x42, cause := .deadline, slot := none, pos := .read 0, back := false, restored := 0 }

theorem witness_CopyEndsSettleTheHeldWrite_tagged :
    (copyEndsAt tagging (streamAccess .copy true 0x0818C 0xA600) { slot := 2, pos := .tag, back := false, sum := 0 }
        { region := 0, record := 4, offset := 1, kind := .journal, domain := 0 }
      ∧ (tagging.dom 0).state = .opened ∧ (tagging.cfg 0).commitAddr ≠ tagging.port.cycle.addr
      ∧ State.WordDone tagging.layout.verify false none (streamAccess .copy true 0x0818C 0xA600) 0xA600 tagging
      ∧ tagging.memPort.stopped = false)
    ∧ (∀ backlog, let s := taggingCommit { openPair with backlog := backlog }
      copyEndsAt s (streamAccess .copy true 0x0818C 0xA600) { slot := 2, pos := .tag, back := false, sum := 0 }
        { region := 0, record := 0, offset := 0, kind := .journal, domain := 0 }
      ∧ (s.cfg 0).enabled = true ∧ (s.cfg 0).commitAddr = s.port.cycle.addr ∧ (s.dom 0).backlog = backlog
      ∧ s.indexed 0 0 = some 2)
    ∧ (let s := { taggingCommit openPair with memory := [(0x10320, 7)] }
       (s.cfg 0).guardMode.Accepts (Memory.word s.memory 0x08190) (s.port.cycle.merged (Memory.word s.memory 0x08190)))
    ∧ (let s := { taggingCommit openPair with memory := [(0x10320, 6)] }
       ¬ (s.cfg 0).guardMode.Accepts (Memory.word s.memory 0x08190) (s.port.cycle.merged (Memory.word s.memory 0x08190))
        ∧ (s.dom 0).members ≠ [] ∧ ∀ j ∈ (s.dom 0).members, j ≠ 2 → (s.slot j).state ≠ .copying)
    ∧ (let s := tagging.setDom 0 { idleAt 0x41 with state := .rolling, restoreList := [2, 1, 0], stream := some idleRestore }
       (s.dom 0).state = .rolling ∧ (s.dom 0).stream = some idleRestore ∧ idleRestore.slot = none
        ∧ (s.dom 0).restoreList = 2 :: [1, 0] ∧ ∀ j ∈ (s.dom 0).restoreList, j ≠ 2 → (s.slot j).state ≠ .copying) := by
  refine ⟨⟨⟨⟨rfl, rfl, rfl, rfl⟩, ?_⟩, ?_⟩, fun b => ⟨⟨⟨rfl, rfl, rfl, rfl⟩, ?_⟩, rfl, rfl, rfl, rfl⟩, ?_, ?_, by decide⟩
  · unfold HostPort.NoneFollows; decide
  · unfold State.WordDone State.wordRead; decide
  · exact ⟨guarding_not_starting, guarding_not_frozen, rfl, rfl, rfl, rfl, by decide, rfl, fun _ => rfl⟩
  · show _ = _; decide
  · exact ⟨by show ¬ _ = _; decide, by decide⟩

theorem witness_CopyEndsSettleTheHeldWrite_not_blank :
    (∀ members, let s := copyingOnce { openPair with members := members }
      copyEndsAt s (streamAccess .copy false 0x02003 0) { slot := 2, pos := .read 3, back := false, sum := 0 }
        { region := 0, record := 4, offset := 1, kind := .journal, domain := 0 }
      ∧ (s.layout.regions[(s.slot 2).region]).kind = .once ∧ s.wordRead none (streamAccess .copy false 0x02003 0) ≠ 0xFFFF)
    ∧ (let s := copyingOnce { openPair with members := [2] }
       (s.dom 0).state = .opened ∧ (s.dom 0).members.erase 2 = [])
    ∧ (let s := copyingOnce openPair
       (s.cfg 0).strict = true ∧ (s.dom 0).members.erase 2 = [0]
        ∧ (∀ i ∈ (s.dom 0).members.erase 2, i ≠ 2 → (s.slot i).state ≠ .copying)
        ∧ ∀ d, d ≠ 0 → ¬ ((s.cfg d).strict = true ∧ (s.dom d).state = .opened))
    ∧ (let s := copyingOnce { idleAt 0x41 with state := .rolling, restoreList := [2, 0], stream := some idleRestore }
       (s.dom 0).state = .rolling ∧ (s.dom 0).stream = some idleRestore
        ∧ ∀ j ∈ (s.dom 0).restoreList.erase 2, j ≠ 2 → (s.slot j).state ≠ .copying) := by
  refine ⟨fun m => ⟨⟨⟨rfl, rfl, rfl, rfl⟩, guarding_not_starting, guarding_not_frozen, rfl, rfl, rfl, rfl, by decide, rfl, fun _ => rfl⟩, rfl, ?_⟩,
    by decide, by decide, by decide⟩
  exact (by decide : Memory.word opened.memory 0x02003 ≠ 0xFFFF)

theorem witness_CopyEndsSettleTheHeldWrite_faulted :
    (∀ pos, let s := copyBack pos 0x08190
      copyEndsAt s (streamAccess .copy false 0x08190 0) { slot := 2, pos := pos, back := true, sum := 0 }
        { region := 0, record := 4, offset := 1, kind := .journal, domain := 0 }
      ∧ s.layout.verify = true ∧ (s.dom 0).state = .opened ∧ (s.dom 0).members.erase 2 = [0, 1]
      ∧ ∀ w, w ≠ 0 → State.WordFails s.layout.verify true none (streamAccess .copy false 0x08190 0) w s)
    ∧ ((0x42 : Word) ≠ 0 ∧ (0x0004 : Word) ≠ 0 ∧ ~~~ ((0x42 : Word) + 0x0004 + 0) ≠ 0 ∧ (0xA600 : Word) ≠ 0)
    ∧ (∀ j ∈ [0, 1], j ≠ 2 → ((copyBack .tag 0x08190).slot j).state ≠ .copying)
    ∧ (let s := (copyBack .tag 0x0818C).setDom 0 { idleAt 0x41 with state := .opened, members := [2] }
       (s.dom 0).state = .opened ∧ (s.dom 0).members.erase 2 = [])
    ∧ (let s := (copyBack .tag 0x0818C).setDom 0
         { idleAt 0x41 with state := .rolling, restoreList := [2], stream := some idleRestore }
       (s.dom 0).state = .rolling ∧ (s.dom 0).stream = some idleRestore ∧ (s.dom 0).restoreList.erase 2 = []) := by
  refine ⟨fun pos => ⟨⟨⟨rfl, rfl, rfl, rfl⟩, guarding_not_starting, guarding_not_frozen, rfl, rfl, rfl, rfl, by decide, rfl, fun _ => rfl⟩, rfl, rfl,
    rfl, fun w hw => ⟨rfl, rfl, rfl, ?_⟩⟩, by decide, by decide, by decide, by decide⟩
  exact fun h => hw (h.symm.trans (by decide : Memory.word opened.memory 0x08190 = 0))

theorem witness_EpochWriteCommits :
    (committing.InProgress .commit (streamAccess .commit true 0x08100 0x42) ∧ committing.mode ≠ .starting
      ∧ committing.mode ≠ .frozen ∧ committing.commit = some { domain := 0, back := false } ∧ committing.port.NoneFollows
      ∧ State.WordDone committing.layout.verify false none (streamAccess .commit true 0x08100 0x42) 0x42 committing)
    ∧ ((verifying committing).layout.verify = true ∧ (streamAccess .commit true 0x08100 0x42).write = true
      ∧ (verifying committing).NoCycleWaits)
    ∧ (let a := streamAccess .commit false 0x08100 0
       let s := withAccess a (verifying { committing with commit := some { domain := 0, back := true } })
       s.InProgress .commit a ∧ s.commit = some { domain := 0, back := true }
        ∧ State.WordFails s.layout.verify true none a ((s.dom 0).committed + 1) s) := by
  unfold State.InProgress HostPort.NoneFollows State.NoCycleWaits State.WordDone State.WordFails State.wordRead
  decide

/-- A commit attempt of domain 0 held for backlog, slot 0 the last RETIRING one; the old commit word as given. -/
def backlogged (old : Byte) : State :=
  deciding 0 0 8 .backlog { retiring with
    domains := opened.domains.set 0 { opened.dom 0 with committed := 0x42, members := [2], backlog := 1 }
    retireQueue := [0]
    slotIndex := [{ region := 0, record := 0, slot := 2 }]
    memory := [(0x10320, old)] }

theorem witness_RetireFreesTheSlot :
    (retiring.InProgress .retire (streamAccess .retire true 0x08104 0) ∧ retiring.mode ≠ .starting
      ∧ retiring.mode ≠ .frozen ∧ retiring.NoCycleWaits ∧ retiring.retireQueue = 0 :: [1] ∧ retiring.NoWriteWaits
      ∧ State.WordDone retiring.layout.verify retiring.retireBack none (streamAccess .retire true 0x08104 0) 0 retiring)
    ∧ ((verifying retiring).layout.verify = true ∧ (verifying retiring).retireBack = false
      ∧ (streamAccess .retire true 0x08104 0).write = true)
    ∧ (let a := streamAccess .retire false 0x08104 0
       let s := withAccess a (verifying { retiring with retireBack := true })
       State.WordFails s.layout.verify s.retireBack (some 0xA600) a 0 s)
    ∧ (let s := deciding 4 1 5 .slot { retiring with freeQueue := [] }
       s.NoCycleWaits ∧ s.port.stage = .slot ∧ s.freeQueue = [] ∧ s.port.state = .deciding)
    ∧ (∀ old, (backlogged old).port.stage = .backlog ∧ ((backlogged old).slot 0).domain = 0
        ∧ ((backlogged old).dom 0).backlog = 1 ∧ (backlogged old).indexed 0 0 = some 2
        ∧ (backlogged old).port.NoneFollows)
    ∧ GuardMode.advance.Accepts (Memory.word (backlogged 7).memory 0x08190)
        ((backlogged 7).port.cycle.merged (Memory.word (backlogged 7).memory 0x08190))
    ∧ (¬ GuardMode.advance.Accepts (Memory.word (backlogged 6).memory 0x08190)
        ((backlogged 6).port.cycle.merged (Memory.word (backlogged 6).memory 0x08190))
      ∧ ((backlogged 6).dom 0).members ≠ []
      ∧ ∀ x ∈ ((backlogged 6).dom 0).members, x ≠ 0 → ((backlogged 6).slot x).state ≠ .copying) := by
  refine ⟨?_, by decide, ?_, ?_, fun _ => ⟨rfl, rfl, rfl, rfl, fun _ => rfl⟩, ?_, ?_, by decide⟩
  · unfold State.InProgress State.NoCycleWaits State.NoWriteWaits State.WordDone State.wordRead; decide
  · unfold State.WordFails State.wordRead; decide
  · unfold State.NoCycleWaits; decide
  · show _ = _; decide
  · show ¬ _ = _; decide

theorem witness_RestoresWorkWordByWord :
    (∀ pos write, (rolling pos write 0x01000 7).InProgress (.restore 0) (streamAccess (.restore 0) write 0x01000 7)
      ∧ (rolling pos write 0x01000 7).mode ≠ .starting ∧ (rolling pos write 0x01000 7).NoCycleWaits
      ∧ ((rolling pos write 0x01000 7).dom 0).stream
          = some { epoch := 0x42, cause := .requested, slot := some 1, pos := pos, back := false, restored := 0 })
    ∧ ((streamAccess (.restore 0) false 0x01000 7).write = false ∧ (streamAccess (.restore 0) true 0x01000 7).write = true)
    ∧ (let s := rolling (.word 0 7) true 0x01000 7
       State.WordDone s.layout.verify false none (streamAccess (.restore 0) true 0x01000 7) 7 s
        ∧ (s.slot 1).region = 0 ∧ 0 + 1 < ledger.regions[(0 : Fin 16)].size ∧ ledger.regions[(0 : Fin 16)].size ≤ 5 + 1)
    ∧ (let s := verifying (rolling (.word 0 7) true 0x01000 7)
       s.layout.verify = true ∧ State.WordDone true true (some 7) (streamAccess (.restore 0) false 0x01000 0) 7 s)
    ∧ (rolling (.read 0) false 0x0814C 0).OnlyRestores 0
    ∧ (clearingTag.InProgress .recovery (streamAccess .recovery true 0x08104 0) ∧ clearingTag.mode = .starting
      ∧ clearingTag.NoCycleWaits ∧ clearingTag.memPort.stopped = false ∧ ¬ clearingTag.Ready .host
      ∧ (verifying clearingTag).layout.verify = true
      ∧ clearingTag.recovery.pos = .restore { slot := 0, domain := 0, epoch := 0x42, region := 0, record := 3, size := 6 } .tag false) := by
  refine ⟨fun pos write => ⟨⟨rfl, rfl, rfl, rfl⟩, by show Mode.guarding ≠ _; decide, fun _ => rfl, rfl⟩, by decide, ?_, ?_, ?_, ?_⟩
  · unfold State.WordDone State.wordRead; decide
  · unfold State.WordDone State.wordRead; decide
  · unfold State.OnlyRestores; decide
  · unfold State.InProgress State.NoCycleWaits State.Ready; decide

theorem witness_RestoredSlotsAreFreed :
    (let s := rolling .tag true 0x08148 0
     s.InProgress (.restore 0) (streamAccess (.restore 0) true 0x08148 0) ∧ s.mode ≠ .starting ∧ s.mode ≠ .frozen
      ∧ s.NoCycleWaits ∧ s.NoWriteWaits
      ∧ (s.dom 0).stream = some { epoch := 0x42, cause := .requested, slot := some 1, pos := .tag, back := false, restored := 0 }
      ∧ State.WordDone s.layout.verify false none (streamAccess (.restore 0) true 0x08148 0) 0 s
      ∧ (s.dom 0).restoreList = 0 :: [] ∧ ∀ x ∈ (s.dom 0).restoreList, x ≠ 1 → (s.slot x).state ≠ .copying)
    ∧ (let h : Hit := { region := 3, record := 0, offset := 0, kind := .journal, domain := 1 }
       let s := { rolling .tag true 0x08148 0 with
         freeQueue := []
         port := .latched .deciding (writeCycle 0x0A000 both false 5) (some (.hit h)) (some .journal) .slot }
       s.NoCycleWaits ∧ s.port.state = .deciding ∧ s.port.disp = some .journal ∧ s.port.cls = some (.hit h)
        ∧ s.port.stage = .slot ∧ s.freeQueue = [] ∧ h.domain ≠ 0 ∧ 1 ∉ (s.dom 0).restoreList)
    ∧ (let s := verifying (rolling .tag false 0x08148 0)
       s.NoWriteWaits ∧ State.WordFails s.layout.verify true (some 1) (streamAccess (.restore 0) false 0x08148 0) 0 s)
    ∧ (let s := verifying (rolling (.word 0 7) false 0x01000 0)
       State.WordFails s.layout.verify true none (streamAccess (.restore 0) false 0x01000 0) 7 s) := by
  unfold State.InProgress State.NoCycleWaits State.NoWriteWaits State.WordDone State.WordFails State.wordRead
  decide

theorem witness_LoadChoosesACopy_reads :
    (let s := starting .load (.copies []) false 0x08000 0
     s.InProgress .recovery (streamAccess .recovery false 0x08000 0) ∧ s.mode = .starting ∧ s.NoCycleWaits
      ∧ s.recovery.pos = .copies [] ∧ ([] : List Word).length < 255)
    ∧ (let s := starting .load (.epochs [0, 1]) false 0x08100 0
       s.InProgress .recovery (streamAccess .recovery false 0x08100 0) ∧ s.recovery.pos = .epochs (0 :: 1 :: [])
        ∧ s.recovery.chosen = some { copy := .a, sequence := 1, layout := ledger })
    ∧ Layout.cleared.enabledDomains = [] ∧ 0 < ({ Layout.cleared with logLength := 264 } : Layout).geometry.slots := by
  unfold State.InProgress State.NoCycleWaits
  decide

theorem witness_LoadChoosesACopy_none :
    (let s := starting .load (.copies (List.replicate 255 0)) false 0x080FF 0
     s.InProgress .recovery (streamAccess .recovery false 0x080FF 0) ∧ s.mode = .starting ∧ s.NoCycleWaits
      ∧ s.recovery.pos = .copies (List.replicate 255 0))
    ∧ (List.replicate 255 (0 : Word)).length = 255
    ∧ readCopy 0x08000 ((List.replicate 255 0).take 128) = none
    ∧ readCopy 0x08000 ((List.replicate 255 0).drop 128 ++ [0]) = none := by
  refine ⟨⟨by unfold State.InProgress; decide, rfl, fun _ => rfl, rfl⟩, List.length_replicate, ?_, ?_⟩
  all_goals (unfold readCopy; rw [if_neg]; intro h; exact absurd h.1 (by decide))

/-- The words of copy A for the ledger at sequence 5, and all but the last word of a blank copy B. -/
def copyALoaded : List Word := copyWords 5 ledger ++ List.replicate 127 0

theorem copyWords_length : (copyWords 5 ledger).length = 128 := by
  simp [copyWords, copyBody, regionIndices, domainIndices, RegionEntry.words, DomainCfg.words]

theorem readLayout_ledger : readLayout (copyWords 5 ledger) = some ledger := by decide +kernel

theorem copyBody_length : (copyBody 5 ledger).length = 127 := by
  simp [copyBody, regionIndices, domainIndices, RegionEntry.words, DomainCfg.words]

theorem crc_is_the_last_word (body : List Word) (h : body.length = 127) :
    crc ((body ++ [crc body]).take 127) = (body ++ [crc body]).getD 127 0 := by
  rw [List.take_left' h, List.getD_eq_getElem?_getD, List.getElem?_append_right (by rw [h]), h]
  simp

theorem readCopy_ledger : readCopy 0x08000 (copyWords 5 ledger) = some (5, ledger) := by
  have hv : validate 0x08000 ledger = none := test_ledger_is_valid
  have h0 : (copyWords 5 ledger).getD 0 0 = 0x4E42 := by simp [copyWords, copyBody]
  have h1 : (copyWords 5 ledger).getD 1 0 = 5 := by simp [copyWords, copyBody]
  unfold readCopy
  rw [if_pos ⟨h0, crc_is_the_last_word _ copyBody_length⟩, readLayout_ledger, h1]
  simp only [hv, Option.isNone_none, if_true]

theorem witness_LoadChoosesACopy_a_valid_copy :
    copyALoaded.length = 255 ∧ readCopy 0x08000 (copyALoaded.take 128) = some (5, ledger)
    ∧ readCopy 0x08000 (copyALoaded.drop 128 ++ [0]) = none ∧ ledger.enabledDomains ≠ [] := by
  have ht : copyALoaded.take 128 = copyWords 5 ledger := List.take_left' copyWords_length
  have hd : copyALoaded.drop 128 = List.replicate 127 0 := List.drop_left' copyWords_length
  refine ⟨by rw [copyALoaded, List.length_append, copyWords_length, List.length_replicate], ?_, ?_, by decide⟩
  · rw [ht, readCopy_ledger]
  · rw [hd]
    unfold readCopy
    rw [if_neg]
    intro h
    exact absurd h.1 (by decide)

theorem witness_LoadChoosesACopy_last_epoch :
    (let s := starting .load (.epochs [1]) false 0x08101 0
     s.InProgress .recovery (streamAccess .recovery false 0x08101 0) ∧ s.mode = .starting ∧ s.NoCycleWaits
      ∧ s.recovery.pos = .epochs [1] ∧ s.recovery.chosen = some { copy := .a, sequence := 1, layout := ledger })
    ∧ 0 < ledger.geometry.slots :=
  ⟨⟨by unfold State.InProgress; decide, rfl, fun _ => rfl, rfl, rfl⟩, by decide +kernel⟩

/-- SCAN at slot 0 at a position, a word being read. -/
def scanning (p : ScanPos) : State := starting .scan (.scan p false) false 0x08104 0

theorem witness_ScanJudgesEachSlot :
    (∀ p, (scanning p).InProgress .recovery (streamAccess .recovery false 0x08104 0) ∧ (scanning p).mode = .starting
      ∧ (scanning p).NoCycleWaits ∧ (scanning p).recovery.pos = .scan p false ∧ (scanning p).recovery.phase = .scan
      ∧ (scanning p).recovery.scanPos + 1 < (scanning p).geometry.slots)
    ∧ (let s : State := { scanning .tag with recovery := { (scanning .tag).recovery with scanPos := 3 } }
       s.geometry.slots ≤ s.recovery.scanPos + 1 ∧ s.recovery.list = [])
    ∧ ((0xA601 : Word) = 0xA600 + BitVec.ofNat 16 (1 : Fin 4).val ∧ (guarding.cfg 1).enabled = true
      ∧ (guarding.cfg 3).enabled = false)
    ∧ (let e : RegionEntry := ledger.regions[locatorRegion 0x0063]
       e.active = true ∧ e.kind ≠ .fixed ∧ e.domain = 0 ∧ (0x0063 : Word).toNat % 4096 < e.count ∧ ¬ (0x0064 : Word).toNat % 4096 < e.count
        ∧ 4 + 1 < e.size ∧ e.size ≤ 5 + 1)
    ∧ (~~~ ((0x0042 : Word) + 0x0003 + (0x1285 + 0x00A0)) = 0xEC95 ∧ (0x42 : Word) = (0x41 : Word) + 1)
    ∧ ((verifying (scanning (.clear .torn))).layout.verify = true ∧ (streamAccess .recovery true 0x08104 0).write = true)
    ∧ (let a := streamAccess .recovery false 0x08104 0
       let s := scanning (.clear .torn)
       State.WordDone true true none a 0 s ∧ State.WordFails true true (some 0xA600) a 0 s) := by
  refine ⟨fun p => ⟨⟨rfl, rfl, rfl, rfl⟩, rfl, fun _ => rfl, rfl, rfl, by show 1 < 4; decide⟩, by decide, by decide, by decide,
    by decide, by decide, ?_⟩
  unfold State.WordDone State.WordFails State.wordRead
  decide

theorem witness_RecoveryRestoresAndEndsStarting :
    (let it : RecItem := { slot := 0, domain := 0, epoch := 0x42, region := 0, record := 3, size := 6 }
     let a := streamAccess .recovery true 0x08104 0
     let s := clearingTag
     s.InProgress .recovery a ∧ s.mode = .starting ∧ s.NoCycleWaits ∧ s.recovery.pos = .restore it .tag false
      ∧ s.recovery.phase = .restore ∧ State.WordDone s.layout.verify false none a 0 s)
    ∧ (let a := streamAccess .recovery false 0x08104 0
       State.WordFails (verifying clearingTag).layout.verify true (some 0xA600) a 0 (verifying clearingTag))
    ∧ (let it : RecItem := { slot := 0, domain := 0, epoch := 0x42, region := 0, record := 3, size := 6 }
       let a := streamAccess .recovery false 0x01012 0
       let s := verifying (starting .restore (.restore it (.word 0 7) true) false 0x01012 0)
       State.WordFails s.layout.verify true none a 7 s) := by
  unfold State.InProgress State.NoCycleWaits State.WordDone State.WordFails State.wordRead
  decide

/-- What RestoresOn and Released speak of: a list left, an empty list, a Port VACANT, ENDED and HELD. -/
theorem witness_RestoresOn :
    (let it : RecItem := { slot := 1, domain := 0, epoch := 0x42, region := 0, record := 0, size := 6 }
     let u : State := { clearingTag with recovery := { clearingTag.recovery with list := [it] } }
     u.recovery.list = [] ++ [it])
    ∧ (clearingTag.recovery.list = [] ∧ clearingTag.started.port.state = .vacant)
    ∧ (let p : HostPort := .latched .deciding (writeCycle 0x01000 both false 5) none (some .ended) .none
       let u : State := { clearingTag with port := p }.started
       u.port.state = .deciding ∧ u.port.disp = some .ended ∧ u.port.NoneFollows)
    ∧ (let u : State := { clearingTag with port := .latched .held (readCycle 0x00080 both false) none none .none }.started
       u.port.state = .held ∧ u.port.cycle.write = false ∧ classify u u.port.cycle.addr = .uncovered) := by
  unfold HostPort.NoneFollows
  decide

theorem witness_InstallStepsLeadToTheAdoption :
    (let a := streamAccess .install true 0x09F90 0
     let s := installing (.tags 115) true 0x09F90 0
     s.InProgress .install a ∧ s.mode = .installing ∧ s.NoCycleWaits ∧ s.link.pendingOp = .install 9
      ∧ State.WordDone s.staging.verify false none a 0 s ∧ s.install.map (·.returnMode) = some .guarding)
    ∧ (ledger.geometry.slots ≤ 115 + 1 ∧ 114 + 1 < ledger.geometry.slots)
    ∧ ((installing (.copy 127) true 0x080FF 0).install.map (·.step) = some (.copy 127) ∧ ledger.enabledDomains = 0 :: [1]
      ∧ Layout.cleared.enabledDomains = [])
    ∧ ((installing (.epochs [1]) false 0x08101 0).install.map (·.step) = some (.epochs [1])
      ∧ (installing (.epochs [0, 1]) false 0x08100 0).install.map (·.step) = some (.epochs (0 :: 1 :: []))
      ∧ (installing (.epochs [1]) false 0x08101 0).port.state = .vacant)
    ∧ (let s : State := { installing (.tags 0) true 0x08104 0 with staging := { ledger with verify := true } }
       s.staging.verify = true ∧ s.install.map (·.back) = some false)
    ∧ (let a := streamAccess .install false 0x08104 0
       let s := installing (.tags 0) false 0x08104 0
       State.WordFails true true (some 0xA600) a 0 s ∧ s.resetAsserted = false ∧ s.port.state = .vacant)
    ∧ (let a := streamAccess .install false 0x08080 0
       let s := installing (.copy 0) false 0x08080 0
       State.WordFails true true (some 0) a 0x4E42 s ∧ (copyWords 2 ledger).getD 0 0 = 0x4E42) := by
  unfold State.InProgress State.NoCycleWaits State.WordDone State.WordFails State.wordRead
  refine ⟨by decide, by decide +kernel, by decide, by decide, by decide, by decide, by decide, ?_⟩
  simp [copyWords, copyBody]

end Sys2Proof.Tests
end

section
/-! The Match Unit's answer (R3, R15, R16): the model's tests for the log area and for a span, tied to the words of the manual,
then the answer of `classify` case by case. -/

namespace Sys2Proof.Machine

theorem mem_regionIndices (r : Fin 16) : r ∈ regionIndices := by
  revert r
  decide

theorem State.inLogArea_iff (s : State) (a : Addr) : s.inLogArea a = true ↔
    s.activeCopy ≠ none ∧ logStartOf s.loc ≤ a.toNat ∧ a.toNat < logStartOf s.loc + s.layout.logLength := by
  change _ ↔ s.activeCopy ≠ none ∧ s.logStart ≤ a.toNat ∧ a.toNat < s.logStart + s.layout.logLength
  simp [State.inLogArea, Option.isSome_iff_ne_none, and_assoc]

theorem Layout.covers_iff (l : Layout) (r : Fin 16) (a : Nat) :
    l.regions[r].covers a = true ↔ l.regions[r].active = true ∧ l.HasWord r a := by
  simp [RegionEntry.covers, Layout.HasWord, and_assoc]

/-! ### Where a word of a region stands (R3) -/

theorem Layout.HasWord.offset_lt {l : Layout} {r : Fin 16} {a : Nat} (h : l.HasWord r a) :
    (a - l.regions[r].base.toNat) % l.regions[r].size < l.regions[r].size := by
  obtain ⟨hbase, hend⟩ := h
  refine Nat.mod_lt _ (Nat.pos_of_ne_zero fun hsize => ?_)
  rw [hsize, Nat.zero_mul] at hend
  omega

theorem Layout.HasWord.record_lt {l : Layout} {r : Fin 16} {a : Nat} (h : l.HasWord r a) :
    (a - l.regions[r].base.toNat) / l.regions[r].size < l.regions[r].count := by
  obtain ⟨hbase, hend⟩ := h
  exact Nat.div_lt_of_lt_mul (by omega)

theorem Layout.HasWord.eq_record_offset {l : Layout} {r : Fin 16} {a : Nat} (h : l.HasWord r a) :
    a = l.regions[r].base.toNat + l.regions[r].size * ((a - l.regions[r].base.toNat) / l.regions[r].size)
      + (a - l.regions[r].base.toNat) % l.regions[r].size := by
  rw [Nat.add_assoc, Nat.div_add_mod]
  exact (Nat.add_sub_cancel' h.1).symm

/-! ### The three answers (R16) -/

theorem classify_logArea {s : State} {a : Addr} (hlog : s.inLogArea a = true) : classify s a = .logArea := by
  simp [classify, hlog]

/-- Off the log area the answer comes from the first region, in index order, whose span contains the address. -/
theorem classify_off_log {s : State} {a : Addr} (hlog : ¬ s.inLogArea a = true) :
    (∃ r, s.layout.regions[r].covers a.toNat = true ∧ classify s a = .hit (hitOf r s.layout.regions[r] a)) ∨
      ((∀ r : Fin 16, ¬ s.layout.regions[r].covers a.toNat = true) ∧ classify s a = .uncovered) := by
  rw [classify, if_neg hlog]
  cases hfind : regionIndices.find? (fun i => s.layout.regions[i].covers a.toNat) with
  | some r =>
    have hr := List.find?_some hfind
    exact .inl ⟨r, hr, rfl⟩
  | none => exact .inr ⟨fun r => List.find?_eq_none.mp hfind r (mem_regionIndices r), rfl⟩

/-- No log word is a word of an active region, when each is off the log. -/
theorem State.not_inLogArea_of_covers {s : State} {a : Addr} {r : Fin 16}
    (hoff : s.layout.OffTheLog (logStartOf s.loc) r) (hr : s.layout.regions[r].covers a.toNat = true) :
    ¬ s.inLogArea a = true := by
  obtain ⟨hactive, hword⟩ := (s.layout.covers_iff r _).mp hr
  intro hlog
  obtain ⟨-, hspan⟩ := (s.inLogArea_iff a).mp hlog
  exact hoff hactive _ hword hspan

theorem Layout.covers_unique {l : Layout} (hapart : ∀ r q, r < q → l.Apart r q) {r q : Fin 16} {a : Nat}
    (hr : l.regions[r].covers a = true) (hq : l.regions[q].covers a = true) : r = q := by
  obtain ⟨hractive, hrword⟩ := (l.covers_iff r a).mp hr
  obtain ⟨hqactive, hqword⟩ := (l.covers_iff q a).mp hq
  rcases lt_trichotomy r q with hlt | heq | hgt
  · exact absurd hqword (hapart r q hlt hractive hqactive a hrword)
  · exact heq
  · exact absurd hrword (hapart q r hgt hqactive hractive a hqword)

theorem classify_hit_of_apart {s : State} {a : Addr} {r : Fin 16} (hoff : s.layout.OffTheLog (logStartOf s.loc) r)
    (hapart : ∀ r q, r < q → s.layout.Apart r q) (hr : s.layout.regions[r].covers a.toNat = true) :
    classify s a = .hit (hitOf r s.layout.regions[r] a) := by
  obtain ⟨q, hq, hans⟩ | ⟨hnone, -⟩ := classify_off_log (State.not_inLogArea_of_covers hoff hr)
  · rw [Layout.covers_unique hapart hr hq, hans]
  · exact absurd hr (hnone r)

/-- The answer rests on the active tables, the active copy and the log start alone. -/
theorem classify_congr {s s' : State} (a : Addr) (hlayout : s'.layout = s.layout) (hcopy : s'.activeCopy = s.activeCopy)
    (hloc : s'.loc = s.loc) : classify s' a = classify s a := by
  have hlog : s'.inLogArea a = s.inLogArea a := by
    rw [Bool.eq_iff_iff, State.inLogArea_iff, State.inLogArea_iff, hlayout, hcopy, hloc]
  rw [classify, classify, hlog, hlayout]

/-- Settles O15: each clause is one of the lemmas above, with the log area and the span in the manual's words. -/
theorem classificationLocatesTheRecord : Obligations.ClassificationLocatesTheRecord := by
  refine ⟨fun s a => ?_, fun s s' a => classify_congr a⟩
  simp only [← s.inLogArea_iff a, ← s.layout.covers_iff]
  refine ⟨classify_logArea, fun hlog hsome => ?_, fun hlog hnone => ?_,
    fun hoff hapart r => classify_hit_of_apart (hoff r) hapart, fun r hr => ?_⟩
  · obtain hhit | ⟨hnone, -⟩ := classify_off_log hlog
    · exact hhit
    · exact (not_exists.mpr hnone hsome).elim
  · obtain ⟨r, hr, -⟩ | ⟨-, hans⟩ := classify_off_log hlog
    · exact absurd hr (hnone r)
    · exact hans
  · obtain ⟨-, hword⟩ := (s.layout.covers_iff r _).mp hr
    exact ⟨hword.eq_record_offset, hword.offset_lt, hword.record_lt⟩

end Sys2Proof.Machine
end

section
/-! A posting settled (R170 to R172): when the newest record takes the event in, what the queue becomes in each of its three
outcomes, and the mask before them. -/

namespace Sys2Proof.Machine

/-- The record keeps its address and its domain; the count rises to 255 at most (R171). -/
theorem coalesced_of_match (reason : Reason) (addr addr' : Addr) (region : Option (Fin 16)) (domain domain' : Option (Fin 4))
    (count count' : Nat) :
    coalesced { event := .writeBlocked reason addr region domain count, lost := false }
        (.writeBlocked reason addr' region domain' count') =
      some { event := .writeBlocked reason addr region domain (min 255 (count + 1)), lost := false } :=
  if_pos ⟨rfl, rfl, rfl⟩

/-- The converse of `coalesced_of_match`: only a WRITE_BLOCKED of the same reason and region, with its lost flag clear, takes
an event in (R171). -/
theorem match_of_coalesced {newest r : EventRec} {e : Event} (h : coalesced newest e = some r) :
    ∃ reason addr region domain count addr' domain' count',
      newest = { event := .writeBlocked reason addr region domain count, lost := false } ∧
        e = .writeBlocked reason addr' region domain' count' := by
  obtain ⟨event, lost⟩ := newest
  unfold coalesced at h
  split at h
  next reason addr region domain count _ addr' _ domain' count' hevent =>
    split at h
    next hsame =>
      obtain ⟨rfl, rfl, rfl⟩ := hsame
      obtain rfl := hevent
      exact ⟨_, addr, _, domain, count, addr', domain', count', rfl, rfl⟩
    next => cases h
  next => cases h

/-- The second test, ahead of the queue's length (R170). -/
theorem queued_of_coalesced {q : List EventRec} {newest r : EventRec} {e : Event} (h : coalesced newest e = some r) :
    queued (q ++ [newest]) e = q ++ [r] := by
  simp [queued, h]

/-- The third test with room in the queue (R170). -/
theorem queued_of_room {q : List EventRec} {e : Event} (h : ∀ newest ∈ q.getLast?, coalesced newest e = none)
    (hroom : q.length < 16) : queued q e = q ++ [{ event := e, lost := false }] := by
  cases q using List.reverseRecOn with
  | nil => rfl
  | append_singleton q newest =>
    have hnone : coalesced newest e = none := h newest (by simp)
    have hshort : q.length + 1 < 16 := by simpa using hroom
    simp [queued, hnone, hshort]

/-- The third test with the queue full (R172). -/
theorem queued_of_full {q : List EventRec} {newest : EventRec} {e : Event} (h : coalesced newest e = none)
    (hfull : 16 ≤ (q ++ [newest]).length) : queued (q ++ [newest]) e = q ++ [{ newest with lost := true }] := by
  have hlong : 15 ≤ q.length := by simpa using hfull
  simp [queued, h, hlong]

theorem record_eq (e : Event) (s : State) : record e s = { s with events := (record e s).events } := by
  unfold record
  split <;> rfl

theorem record_events_of_masked {e : Event} {s : State} (h : s.mask.getLsbD e.maskBit = false) :
    (record e s).events = s.events := by
  simp [record_events, h]

theorem record_events_of_enabled {e : Event} {s : State} (h : s.mask.getLsbD e.maskBit = true) :
    (record e s).events = queued s.events e := by
  rw [record_events, if_pos h]

/-- Settles O19: the mask first, then the three outcomes of `queued`, the last two where no newest record takes the event in. -/
theorem postingIsSettledByThreeTests : Obligations.PostingIsSettledByThreeTests := by
  refine fun s e => ⟨record_eq e s, record_events_of_masked, fun henabled => ?_⟩
  rw [record_events_of_enabled henabled]
  refine ⟨?folded, fun hno => ?kept⟩
  case folded =>
    rintro q reason addr region domain count addr' domain' count' hevents rfl
    rw [hevents]
    exact queued_of_coalesced (coalesced_of_match ..)
  case kept =>
    have hnone : ∀ newest ∈ s.events.getLast?, coalesced newest e = none := by
      refine fun newest hlast => Option.eq_none_iff_forall_ne_some.mpr fun r hr => ?_
      obtain ⟨reason, addr, region, domain, count, addr', domain', count', rfl, he⟩ := match_of_coalesced hr
      exact hno _ _ _ _ _ _ _ _ _ ⟨(List.dropLast_append_getLast? _ hlast).symm, he⟩
    refine ⟨queued_of_room hnone, fun q newest hevents hfull => ?_⟩
    rw [hevents] at hnone hfull ⊢
    exact queued_of_full (hnone newest (by simp)) hfull

end Sys2Proof.Machine
end

section
/-! What every command leaves alone, and the invariants that need no more than that: the queue, the memory, a begun access, and
nothing ready left waiting. -/

namespace Sys2Proof.Machine

/-! ### The queue (log 3) -/

/-- Settles O1: both branches of `step`. -/
theorem stepRunsTheFrontCommand : Obligations.StepRunsTheFrontCommand :=
  ⟨fun s c rest h => by rw [step, h], fun s h => by rw [step, h]⟩

/-- A step is the idling of an empty queue or a command executed with the queue's rest. -/
theorem step_cases {s t : State} (h : step s = .next t) :
    t = s ∨ ∃ c rest, s.pending = c :: rest ∧ exec c { s with pending := rest } = .next t := by
  unfold step at h
  split at h
  next => exact .inl (Host.Outcome.next.inj h).symm
  next c rest hp => exact .inr ⟨c, rest, hp, h⟩

/-! ### The memory and the queue through a command -/

/-- The memory's contents and the queue of commands stay. -/
structure StoreFrame (s t : State) : Prop where
  memory : t.memory = s.memory
  pending : t.pending = s.pending

theorem StoreFrame.trans {s t u : State} (h1 : StoreFrame s t) (h2 : StoreFrame t u) : StoreFrame s u :=
  ⟨h2.memory.trans h1.memory, h2.pending.trans h1.pending⟩

theorem OuterFrame.store {s t : State} (h : OuterFrame s t) : StoreFrame s t := ⟨h.memory, h.pending⟩

theorem SettleFrame.store {s t : State} (h : SettleFrame s t) : StoreFrame s t := ⟨h.memory, h.pending⟩

theorem settleStep_store {s u : State} (h : StoreFrame s u) (b : Bool) : StoreFrame s (settleStep b u) :=
  h.trans (settleStep_frame b u).store

theorem tickDomain_frame (d : Fin 4) (s : State) : WorkFrame s (tickDomain d s) := by
  unfold tickDomain
  dsimp only
  split
  next => exact WorkFrame.trans _ _ _ (s.setDom_frame _ _) (abortUpdate_frame _ _ _)
  next => exact s.setDom_frame _ _

theorem tickDomains_frame (s : State) : WorkFrame s (tickDomains s) :=
  WorkFrame.trans _ _ _ (WorkFrame.trans _ _ _ (WorkFrame.trans _ _ _ (tickDomain_frame 0 s) (tickDomain_frame 1 _))
    (tickDomain_frame 2 _)) (tickDomain_frame 3 _)

/-- A tick counts in SETTLE, or runs the timers, or does nothing. -/
theorem tickBody_cases (s : State) :
    (∃ r, s.inSettle = true ∧ tickBody s = s.setRecovery r ∧ r.chosen = s.recovery.chosen ∧ r.pos = s.recovery.pos
      ∧ r.outcomes = s.recovery.outcomes ∧ r.list = s.recovery.list ∧ r.failedDomains = s.recovery.failedDomains)
    ∨ (s.mode = .guarding ∧ tickBody s = tickDomains s) ∨ tickBody s = s := by
  unfold tickBody
  split
  next h =>
    unfold settleTick
    split
    next => exact .inr (.inr rfl)
    next => exact .inl ⟨_, h, rfl, rfl, rfl, rfl, rfl, rfl⟩
  next =>
    split
    next h => exact .inr (.inl ⟨h, rfl⟩)
    next => exact .inr (.inr rfl)

theorem tickBody_frame (s : State) : OuterFrame s (tickBody s) := by
  obtain ⟨r, -, h, -⟩ | ⟨-, h⟩ | h := tickBody_cases s <;> rw [h]
  · exact s.setRecovery_frame r
  · exact (tickDomains_frame s).outer
  · exact OuterFrame.refl s

theorem showStraps_store (straps : Straps) (s : State) : StoreFrame s (showStraps straps s) := ⟨rfl, rfl⟩

theorem enterStarting_store (k : StartKind) (s : State) : StoreFrame s (enterStarting k s) := ⟨rfl, rfl⟩

theorem resetFalls_store (s : State) : StoreFrame s (resetFalls s) := by
  obtain ⟨-, h⟩ | ⟨-, -, h⟩ | ⟨-, -, h⟩ | ⟨-, -, -, h⟩ := resetFalls_cases s <;> rw [h] <;> exact ⟨rfl, rfl⟩

theorem resetRises_store (s : State) : StoreFrame s (resetRises s) := by
  obtain ⟨-, h⟩ | ⟨-, h⟩ := resetRises_cases s <;> rw [h]
  · exact settleStep_store (by exact ⟨rfl, rfl⟩) _
  · exact ⟨rfl, rfl⟩

theorem pfwFalls_store (s : State) : StoreFrame s (pfwFalls s) := by
  obtain ⟨-, h⟩ | ⟨-, -, h⟩ | ⟨-, -, h⟩ := pfwFalls_cases s <;> rw [h] <;> exact ⟨rfl, rfl⟩

theorem pfwRises_store (s : State) : StoreFrame s (pfwRises s) := by
  obtain ⟨-, h⟩ | ⟨-, -, h⟩ | ⟨-, -, -, h⟩ | ⟨-, -, -, h⟩ := pfwRises_cases s <;> rw [h]
  · exact ⟨rfl, rfl⟩
  · exact ⟨rfl, rfl⟩
  · exact settleStep_store (by exact ⟨rfl, rfl⟩) _
  · exact settleStep_store (by exact ⟨rfl, rfl⟩) _

theorem busCycle_store (b : BusCycle) (s : State) : StoreFrame s (busCycle b s) := by
  unfold busCycle
  split
  next => exact settleStep_store (arrive_frame s b).outer.store _
  next => exact ⟨rfl, rfl⟩

/-- The end of a host cycle changes the Port alone, or vacates it and ends the step (R64, R65). -/
theorem endCycle_cases (s : State) :
    endCycle s = settleStep false (vacate s) ∨ endCycle s = s
      ∨ (s.port.state ≠ .vacant ∧ (endCycle s = setWaiting none s
        ∨ endCycle s = { s with port := { s.port with early := true } })) := by
  unfold endCycle
  cases hp : s.port.state <;> cases he : s.port.early <;> simp

theorem endCycle_store (s : State) : StoreFrame s (endCycle s) := by
  obtain h | h | ⟨-, h | h⟩ := endCycle_cases s <;> rw [h]
  · exact settleStep_store (by exact ⟨rfl, rfl⟩) _
  all_goals exact ⟨rfl, rfl⟩

theorem RequestEffect.store {s t : State} (h : RequestEffect s t) : StoreFrame s t := by
  cases h with
  | installed => exact settleStep_store (by exact ⟨rfl, rfl⟩) _
  | aborted tag d data =>
    exact settleStep_store ((post_frame s tag 0x20 .ok data).store.trans (abortUpdate_frame _ d .requested).outer.store) _
  | restarted => exact settleStep_store (by exact ⟨rfl, rfl⟩) _
  | _ => exact ⟨rfl, rfl⟩

theorem LinkOnly.store {s t : State} (h : LinkOnly s t) : StoreFrame s t := by
  obtain ⟨l, rfl, -⟩ := h
  exact ⟨rfl, rfl⟩

/-- Only the completion of an access reaches the memory (R103). -/
theorem CommandEffect.memory_cases {c : Instr} {s t : State} (h : CommandEffect c s t) :
    StoreFrame s t ∨ ∃ f a, completionFlaw c = some f ∧ s.memPort.access = some a
      ∧ t.memory = memoryAfter f s.memory a ∧ t.pending = s.pending := by
  cases h with
  | same => exact .inl ⟨rfl, rfl⟩
  | poweredUp => exact .inl ⟨rfl, rfl⟩
  | supplyLost => exact .inl ⟨rfl, rfl⟩
  | ticked => exact .inl (settleStep_store (tickBody_frame s).store _)
  | resetFell straps => exact .inl ((showStraps_store straps s).trans (resetFalls_store _))
  | resetRose straps => exact .inl ((showStraps_store straps s).trans (resetRises_store _))
  | pfwFell straps => exact .inl ((showStraps_store straps s).trans (pfwFalls_store _))
  | pfwRose straps => exact .inl ((showStraps_store straps s).trans (pfwRises_store _))
  | cycled b => exact .inl (busCycle_store b s)
  | cycleEnded => exact .inl (endCycle_store s)
  | completed f a ha hc =>
    refine .inr ⟨f, a, hc, ha, completeAccess_memory f a s, ?_⟩
    exact (settleStep_frame _ _).pending.trans (handOver_frame _ _ _).pending
  | framed _ h => exact .inl h.store
  | requested u _ h ht => exact .inl (h.store.trans ht.store)

/-- Settles O2: `exec_effect` gives the next state, and every effect keeps the queue. -/
theorem everyCommandAnswersAndKeepsTheQueue : Obligations.EveryCommandAnswersAndKeepsTheQueue := by
  intro c s
  obtain ⟨t, ht, he⟩ := exec_effect c s
  obtain h | ⟨f, a, -, -, -, h⟩ := he.memory_cases
  · exact ⟨t, ht, h.pending⟩
  · exact ⟨t, ht, h⟩

theorem accessData_of_write {a : Access} (h : a.write = true) (f : Option Word) (m : List Host.Cell) :
    accessData f m a = f.getD a.data := by
  cases f <;> simp [accessData, h]

theorem memoryAfter_eq (f : Option Word) (m : List Host.Cell) (a : Access) :
    memoryAfter f m a = if a.write then Memory.setWord m a.addr a.lanes (f.getD a.data) else m := by
  unfold memoryAfter
  split
  next h => rw [accessData_of_write h]
  next => rfl

/-- Settles O6: the completion of a write is the one effect that reaches the memory. -/
theorem memoryChangesOnlyByACompletedWrite : Obligations.MemoryChangesOnlyByACompletedWrite := by
  intro c s t h
  obtain h | ⟨f, a, hc, ha, hm, -⟩ := (exec_cases c s t h).memory_cases
  · exact .inl h.memory
  · rw [memoryAfter_eq] at hm
    split at hm
    next hw => exact .inr ⟨f, a, hc, ha, hw, hm⟩
    next => exact .inl hm

/-- Settles O7: the memory stays, or a word of it is written. -/
theorem memoryStaysCanonical : Obligations.MemoryStaysCanonical := by
  intro s t hwf h
  obtain rfl | ⟨c, rest, -, he⟩ := step_cases h
  · exact hwf
  · obtain hm | ⟨f, a, -, -, -, hm⟩ := memoryChangesOnlyByACompletedWrite c _ t he <;> rw [hm]
    · exact hwf
    · exact Memory.wf_setWord _ _ _ _ hwf

/-! ### Reading after writing (R76, R103) -/

theorem lowByte_word (m : List Host.Cell) (a : Addr) :
    (Memory.word m a).extractLsb' 0 8 = Memory.byteAt m (2 * a.toNat) :=
  BitVec.extractLsb'_append_eq_right

theorem highByte_word (m : List Host.Cell) (a : Addr) :
    (Memory.word m a).extractLsb' 8 8 = Memory.byteAt m (2 * a.toNat + 1) :=
  BitVec.extractLsb'_append_eq_left

/-- Settles O5: the word's two bytes are read one by one. -/
theorem memoryReadsBackTheWrittenLanes : Obligations.MemoryReadsBackTheWrittenLanes := by
  intro m a b lanes w hwf
  rw [lowByte_word, highByte_word, Memory.word, Memory.byteAt_setWord _ _ _ _ _ hwf,
    Memory.byteAt_setWord _ _ _ _ _ hwf]
  by_cases hab : b = a
  · subst hab
    simp [highByte, lowByte]
  · have hne : b.toNat ≠ a.toNat := fun h => hab (BitVec.eq_of_toNat_eq h)
    have hlow : 2 * b.toNat ≠ 2 * a.toNat := by omega
    have hhigh : 2 * b.toNat ≠ 2 * a.toNat + 1 := by omega
    have hlow' : 2 * b.toNat + 1 ≠ 2 * a.toNat := by omega
    simp [hab, hlow, hhigh, hlow', Memory.word]

end Sys2Proof.Machine
end

section
/-! What is left ready at a step's end (R65, R107): the claims that stand are the claimants that are ready, a claim that stands is
granted at once, and a cycle that waits for the Port arrives with the vacancy. -/

namespace Sys2Proof.Machine

/-! ### Claims (R106) -/

theorem accessOf_host_isSome (s : State) : (hostAccess s).isSome = true ↔ s.Ready .host := by
  unfold hostAccess State.Ready
  dsimp only
  cases s.port.state <;> cases s.port.stage <;> cases s.port.cycle.write <;> simp

theorem restoreStreamAccess_isSome (s : State) (d : Fin 4) :
    (restoreStreamAccess s d).isSome = true ↔ s.Ready (.restore d) := by
  unfold restoreStreamAccess State.Ready
  cases hst : (s.dom d).stream with
  | none => simp [hst]
  | some st => simp [hst, Option.isSome_iff_exists]

theorem installAccess_isSome (s : State) (st : InstallStream) :
    (installAccess s st).isSome = true ↔ st.step ≠ .epochs [] := by
  unfold installAccess
  split
  next h => simp [h]
  next h => simp [h]
  next h _ => simpa using h

theorem recoveryAccess_isSome (s : State) :
    (recoveryAccess s).isSome = true ↔ s.recovery.pos ≠ .idle ∧ s.recovery.pos ≠ .epochs [] := by
  unfold recoveryAccess
  split <;> simp_all

/-- A claim stands exactly while its claimant has a word access ready (R106, R112). -/
theorem mem_standing_iff_ready (s : State) (c : Claimant) : c ∈ s.standing ↔ s.Ready c := by
  rw [mem_standing]
  cases c with
  | host => exact accessOf_host_isSome s
  | copy => simp [accessOf, State.Ready, Option.isSome_iff_ne_none]
  | commit => simp [accessOf, State.Ready, Option.isSome_iff_ne_none]
  | restore d => exact restoreStreamAccess_isSome s d
  | install =>
    cases hi : s.install with
    | none => simp [accessOf, State.Ready, hi]
    | some st => simp [accessOf, State.Ready, hi, installAccess_isSome]
  | retire => simp [accessOf, State.Ready, Option.isSome_iff_ne_none]
  | recovery =>
    have hready : s.Ready .recovery ↔ s.mode = .starting ∧ s.recovery.pos ≠ .idle ∧ s.recovery.pos ≠ .epochs [] := Iff.rfl
    by_cases h : s.mode = .starting <;> simp [accessOf, hready, h, recoveryAccess_isSome]

theorem standing_eq_nil_iff (s : State) : s.standing = [] ↔ ∀ c, ¬ s.Ready c := by
  simp only [List.eq_nil_iff_forall_not_mem, mem_standing_iff_ready]

theorem State.Settled.of_ready {s t : State} (h : s.Settled) (ha : t.memPort.access = s.memPort.access)
    (hst : t.memPort.stopped = s.memPort.stopped) (hr : ∀ c, t.Ready c → s.Ready c) : t.Settled := by
  intro hta hts
  rw [standing_eq_nil_iff]
  intro c hc
  exact (standing_eq_nil_iff s).1 (h (ha ▸ hta) (hst ▸ hts)) c (hr c hc)

theorem State.settled_of_stopped {s : State} (h : s.memPort.stopped = true) : s.Settled := by
  intro _ hs
  rw [h] at hs
  cases hs

/-! ### What a step leaves waiting -/

/-- What can go on has gone on, if it had before: no claim at an idle port, no cycle at a vacant one (R65, R107). -/
structure LeavesNothing (s t : State) : Prop where
  claims : s.Settled → t.Settled
  cycles : s.NoCycleWaits → t.NoCycleWaits

theorem LeavesNothing.trans {s t u : State} (h1 : LeavesNothing s t) (h2 : LeavesNothing t u) : LeavesNothing s u :=
  ⟨fun h => h2.claims (h1.claims h), fun h => h2.cycles (h1.cycles h)⟩

theorem LeavesNothing.refl (s : State) : LeavesNothing s s := ⟨id, id⟩

theorem settleStep_leavesNothing (b : Bool) (s u : State) : LeavesNothing s (settleStep b u) :=
  ⟨fun _ => settleStep_settled b u, fun _ => settleStep_noCycleWaits b u⟩

/-- Everything that the claims, the waiting cycle and the Memory Port's idleness rest on stays. -/
theorem leavesNothing_of_ready {s t : State} (ha : t.memPort.access = s.memPort.access)
    (hst : t.memPort.stopped = s.memPort.stopped) (hr : ∀ c, t.Ready c → s.Ready c)
    (hp : t.port.state = .vacant → s.port.state = .vacant ∧ t.port.waiting = s.port.waiting) : LeavesNothing s t := by
  refine ⟨fun h => h.of_ready ha hst hr, fun h hv => ?_⟩
  obtain ⟨hs, hw⟩ := hp hv
  rw [hw]
  exact h hs

theorem leavesNothing_of_link (s : State) (l : Link) : LeavesNothing s { s with link := l } :=
  leavesNothing_of_ready rfl rfl (fun c => by cases c <;> exact id) (fun h => ⟨h, rfl⟩)

theorem stoppedPort_vacant {s : State} (h : (stoppedPort s).state = .vacant) :
    s.port.state = .vacant ∧ stoppedPort s = s.port := by
  unfold stoppedPort at h ⊢
  cases hp : s.port.state with
  | atMemory =>
    simp only [hp] at h
    split at h
    next => rw [hp] at h; cases h
    next => cases h
  | deciding => simp [hp] at h
  | _ => simp_all

theorem leavesNothing_of_stopped {s t : State} (h : t.memPort.stopped = true) (hp : t.port = stoppedPort s) :
    LeavesNothing s t := by
  refine ⟨fun _ => State.settled_of_stopped h, fun hw hv => ?_⟩
  rw [hp] at hv ⊢
  obtain ⟨hs, he⟩ := stoppedPort_vacant hv
  rw [he]
  exact hw hs

theorem LeavesNothing.of_vacantPort {s t : State} (h : t.memPort.stopped = true) (hp : t.port = .vacantPort) :
    LeavesNothing s t :=
  ⟨fun _ => State.settled_of_stopped h, fun _ _ => by rw [hp]; rfl⟩

theorem resetFalls_leavesNothing (s : State) : LeavesNothing s (resetFalls s) := by
  obtain ⟨-, h⟩ | ⟨-, -, h⟩ | ⟨-, -, h⟩ | ⟨-, -, -, h⟩ := resetFalls_cases s <;> rw [h]
  · exact .refl s
  · exact leavesNothing_of_ready rfl rfl (fun c => by cases c <;> exact id) (fun h => ⟨h, rfl⟩)
  · exact leavesNothing_of_ready rfl rfl (fun c => by cases c <;> exact id) (fun h => ⟨h, rfl⟩)
  · exact leavesNothing_of_stopped rfl rfl

theorem pfwFalls_leavesNothing (s : State) : LeavesNothing s (pfwFalls s) := by
  obtain ⟨-, h⟩ | ⟨-, -, h⟩ | ⟨-, -, h⟩ := pfwFalls_cases s <;> rw [h]
  · exact .refl s
  · exact leavesNothing_of_ready rfl rfl (fun c => by cases c <;> exact id) (fun h => ⟨h, rfl⟩)
  · exact leavesNothing_of_stopped rfl rfl

theorem resetRises_leavesNothing (s : State) : LeavesNothing s (resetRises s) := by
  obtain ⟨-, h⟩ | ⟨-, h⟩ := resetRises_cases s <;> rw [h]
  · exact settleStep_leavesNothing _ _ _
  · exact .refl s

theorem pfwRises_leavesNothing (s : State) : LeavesNothing s (pfwRises s) := by
  obtain ⟨-, h⟩ | ⟨-, -, h⟩ | ⟨-, -, -, h⟩ | ⟨-, -, -, h⟩ := pfwRises_cases s <;> rw [h]
  · exact .refl s
  · exact leavesNothing_of_ready rfl rfl (fun c => by cases c <;> exact id) (fun h => ⟨h, rfl⟩)
  · exact settleStep_leavesNothing _ _ _
  · exact settleStep_leavesNothing _ _ _

theorem showStraps_leavesNothing (straps : Straps) (s : State) : LeavesNothing s (showStraps straps s) :=
  leavesNothing_of_ready rfl rfl (fun c => by cases c <;> exact id) (fun h => ⟨h, rfl⟩)

theorem busCycle_leavesNothing (b : BusCycle) (s : State) : LeavesNothing s (busCycle b s) := by
  unfold busCycle
  split
  next => exact settleStep_leavesNothing _ _ _
  next h =>
    exact leavesNothing_of_ready rfl rfl (fun c => by cases c <;> exact id) (fun hv => absurd hv h)

theorem endCycle_leavesNothing (s : State) : LeavesNothing s (endCycle s) := by
  obtain h | h | ⟨hp, h | h⟩ := endCycle_cases s <;> rw [h]
  · exact settleStep_leavesNothing _ _ _
  · exact .refl s
  · exact leavesNothing_of_ready rfl rfl (fun c => by cases c <;> exact id) (fun hv => absurd hv hp)
  · exact leavesNothing_of_ready rfl rfl (fun c => by cases c <;> exact id) (fun hv => absurd hv hp)

/-- RESUME leaves every restore stream as it is, and SET_MODE stays out of STARTING. -/
theorem RequestEffect.leavesNothing {s t : State} (h : RequestEffect s t) : LeavesNothing s t := by
  cases h with
  | nothing => exact .refl s
  | resumed tag d =>
    refine leavesNothing_of_ready rfl rfl (fun c => ?_) (fun h => ⟨h, rfl⟩)
    cases c with
    | restore e =>
      unfold State.Ready
      simp only [post, State.dom, State.setDom_domains, Fin.getElem_fin, Vector.getElem_set]
      split
      next he => obtain rfl := Fin.ext he; exact id
      next => exact id
    | _ => exact id
  | moded tag m hm hm' =>
    refine leavesNothing_of_ready rfl rfl (fun c => ?_) (fun h => ⟨h, rfl⟩)
    cases c with
    | recovery =>
      rintro ⟨hs, -⟩
      obtain rfl | rfl := hm' <;> cases hs
    | _ => exact id
  | installed => exact settleStep_leavesNothing _ _ _
  | aborted => exact settleStep_leavesNothing _ _ _
  | restarted => exact settleStep_leavesNothing _ _ _
  | _ => exact leavesNothing_of_ready rfl rfl (fun c => by cases c <;> exact id) (fun h => ⟨h, rfl⟩)

theorem CommandEffect.leavesNothing {c : Instr} {s t : State} (h : CommandEffect c s t) : LeavesNothing s t := by
  cases h with
  | same => exact .refl s
  | poweredUp => exact .of_vacantPort rfl rfl
  | supplyLost => exact .of_vacantPort rfl rfl
  | ticked => exact settleStep_leavesNothing _ _ _
  | resetFell straps => exact (showStraps_leavesNothing straps s).trans (resetFalls_leavesNothing _)
  | resetRose straps => exact (showStraps_leavesNothing straps s).trans (resetRises_leavesNothing _)
  | pfwFell straps => exact (showStraps_leavesNothing straps s).trans (pfwFalls_leavesNothing _)
  | pfwRose straps => exact (showStraps_leavesNothing straps s).trans (pfwRises_leavesNothing _)
  | cycled b => exact busCycle_leavesNothing b s
  | cycleEnded => exact endCycle_leavesNothing s
  | completed => exact settleStep_leavesNothing _ _ _
  | framed _ h =>
    obtain ⟨l, rfl, -⟩ := h
    exact leavesNothing_of_link s l
  | requested u _ h ht =>
    obtain ⟨l, rfl, -⟩ := h
    exact (leavesNothing_of_link s l).trans ht.leavesNothing

/-- Settles O10: an idle step leaves the state, and every effect of a command leaves nothing waiting. -/
theorem nothingReadyIsLeftWaiting : Obligations.NothingReadyIsLeftWaiting := by
  intro s t h
  obtain rfl | ⟨c, rest, -, he⟩ := step_cases h
  · exact ⟨id, id⟩
  · have hq : LeavesNothing s { s with pending := rest } :=
      leavesNothing_of_ready rfl rfl (fun c => by cases c <;> exact id) (fun h => ⟨h, rfl⟩)
    have ht := hq.trans (exec_cases c _ t he).leavesNothing
    exact ⟨ht.claims, ht.cycles⟩

end Sys2Proof.Machine
end

section
/-! The ends of STARTING in one piece each (R126, R127): the state the Host Port's hold then ends in, with the recovery's postings
and its rebuilt tables said together. -/

namespace Sys2Proof.Machine

theorem record_events_congr {u v : State} (e : Event) (hm : u.mask = v.mask) (he : u.events = v.events) :
    (record e u).events = (record e v).events := by
  rw [record_events, record_events, hm, he]

theorem dom_ofFn (s : State) (f : Fin 4 → Runtime) (d : Fin 4) :
    ({ s with domains := Vector.ofFn f } : State).dom d = f d := by
  simp [State.dom]

/-- The domains for which the end of STARTING records DOMAIN_FAILED (R126). -/
def State.failedAtStart (s : State) (d : Fin 4) : Bool := (s.cfg d).enabled && s.recovery.failedDomains[d]

theorem recoveredDomain_failed (s : State) (d : Fin 4) :
    (recoveredDomain s d).state = .failed ↔ s.failedAtStart d = true := by
  unfold recoveredDomain State.failedAtStart
  cases (s.cfg d).enabled <;> cases s.recovery.failedDomains[d] <;>
    cases ((s.cfg d).fence && s.recovery.restoredDomains[d]) <;> simp [Runtime.discarded]

theorem recoveredDomain_epoch (s : State) (d : Fin 4) (h : s.failedAtStart d = true) :
    (recoveredDomain s d).openEpoch = s.recovery.epochs[d] + 1 := by
  have he : (s.cfg d).enabled = true := (Bool.and_eq_true _ _ ▸ h).1
  simp [recoveredDomain, he, Runtime.openEpoch]

/-- The posting of DOMAIN_FAILED domain by domain, with the failed domains picked out first. -/
theorem foldl_recordFailed (u : State) (l : List (Fin 4)) : ∀ t v : State, t.mask = v.mask → t.events = v.events →
    (∀ d, t.dom d = recoveredDomain u d) →
    l.foldl (fun t d => if (t.dom d).state = .failed then record (.domainFailed d (t.dom d).openEpoch) t else t) t =
      { t with events := ((l.filter u.failedAtStart).foldl
          (fun t d => record (.domainFailed d (u.recovery.epochs[d] + 1)) t) v).events } := by
  induction l with
  | nil => intro t v hm he hd; simp [← he]
  | cons d rest ih =>
    intro t v hm he hd
    simp only [List.foldl_cons, List.filter_cons, hd, recoveredDomain_failed]
    by_cases hf : u.failedAtStart d = true
    · rw [if_pos hf, if_pos hf, recoveredDomain_epoch u d hf, List.foldl_cons]
      rw [ih (record _ t) (record (.domainFailed d (u.recovery.epochs[d] + 1)) v) (by simpa using hm)
        (record_events_congr _ hm he) (fun e => by rw [← hd e]; simp [State.dom])]
      rw [record_eq]
    · rw [if_neg hf, if_neg hf]
      exact ih t v hm he hd

theorem foldl_record_mask (u : State) (l : List (Fin 4)) : ∀ t : State,
    (l.foldl (fun t d => record (.domainFailed d (u.recovery.epochs[d] + 1)) t) t).mask = t.mask := by
  induction l with
  | nil => exact fun _ => rfl
  | cons d rest ih => exact fun t => (ih _).trans (record_mask _ t)

/-- The answer to the pending operation at the end of STARTING, as the link shows it (R126). -/
def Link.startAnswered (l : Link) : Link :=
  match l.pendingOp with
  | .none => l
  | .restart tag => { l with pendingOp := .none, result := { tag := tag, code := 0x3F, result := .ok, data := [] } }
  | .install tag => { l with pendingOp := .none, result := { tag := tag, code := 0x14, result := .none, data := [] } }

theorem postPending_eq (s : State) : postPending s = { s with link := s.link.startAnswered } := by
  unfold postPending Link.startAnswered
  cases h : s.link.pendingOp <;> rfl

theorem started_link (u : State) : u.started.link = u.link.startAnswered := by
  unfold State.started Link.startAnswered
  cases u.link.pendingOp <;> rfl

theorem freeSlots_outcomes (os : List SlotOutcome) :
    freeSlots (os.map SlotOutcome.entry) = (List.range os.length).filter fun i =>
      decide (os[i]? = some .free ∨ os[i]? = some .listed) := by
  unfold freeSlots
  rw [List.length_map]
  refine List.filter_congr fun i hi => ?_
  rw [List.mem_range] at hi
  rw [decide_eq_decide, List.getD_eq_getElem?_getD, List.getElem?_map, List.getElem?_eq_getElem hi]
  cases hos : os[i] <;> simp [SlotOutcome.entry, PoolEntry.freeEntry, PoolEntry.badEntry]

/-- The domains, the pool and its collections as the recovery rebuilds them, the outcomes still in the recovery record (R126). -/
def State.rebuilt (s : State) : State := { s with
  domains := Vector.ofFn (recoveredDomain s)
  pool := s.recovery.outcomes.map SlotOutcome.entry
  freeQueue := freeSlots (s.recovery.outcomes.map SlotOutcome.entry)
  slotIndex := s.recovery.outcomes.zipIdx.filterMap (fun p => p.1.indexEntry p.2)
  retireQueue := [] }

theorem rebuilt_domains (s : State) : s.rebuilt.domains = s.started.domains := rfl

theorem rebuilt_pool (s : State) : s.rebuilt.pool = s.started.pool :=
  List.map_congr_left fun o _ => by cases o <;> rfl

theorem rebuilt_slotIndex (s : State) : s.rebuilt.slotIndex = s.started.slotIndex :=
  List.filterMap_congr fun p _ => by obtain ⟨o, i⟩ := p; cases o <;> rfl

theorem rebuilt_freeQueue (s : State) : s.rebuilt.freeQueue = s.started.freeQueue := freeSlots_outcomes _

theorem recordFailed_rebuilt (s : State) : recordFailed s.rebuilt = { s.rebuilt with
    events := ((domainIndices.filter s.failedAtStart).foldl
      (fun t d => record (.domainFailed d (s.recovery.epochs[d] + 1)) t) s).events } :=
  foldl_recordFailed s domainIndices s.rebuilt s rfl rfl fun d => dom_ofFn s _ d

/-- STARTING ends in GUARDING in `State.started`, and then the hold ends (R126). -/
theorem endStarting_eq (s : State) : endStarting s = endHold s.started := by
  have hevents : (record (.recovered s.recovery.startKind s.recovery.counts) (recordFailed s.rebuilt)).events
      = s.started.events := by
    refine record_events_congr _ ?_ ?_
    · rw [recordFailed_rebuilt]
      exact (foldl_record_mask s (domainIndices.filter s.failedAtStart) s).symm
    · rw [recordFailed_rebuilt]
      rfl
  have hanswered : postPending (record (.recovered s.recovery.startKind s.recovery.counts) (recordFailed s.rebuilt)) =
      { s.rebuilt with events := s.started.events, link := s.started.link } := by
    rw [postPending_eq, record_eq, hevents, recordFailed_rebuilt, started_link]
    rfl
  calc endStarting s
      = endHold { postPending (record (.recovered s.recovery.startKind s.recovery.counts) (recordFailed s.rebuilt)) with
          mode := .guarding
          recovery := { (postPending (record (.recovered s.recovery.startKind s.recovery.counts)
            (recordFailed s.rebuilt))).recovery with restoredDomains := Vector.replicate 4 false, pos := .idle } } := rfl
    _ = endHold s.started := by
      rw [hanswered]
      dsimp only
      rw [rebuilt_domains, rebuilt_pool, rebuilt_slotIndex, rebuilt_freeQueue]
      rfl

/-- The state in which STARTING has ended in UNCONFIGURED, before the hold ends (R127). -/
def State.unconfiguredStart (s : State) : State := { s with
  mode := .unconfigured
  recovery := { s.recovery with restoredDomains := Vector.replicate 4 false, pos := .idle }
  events := (record (.unconfigured s.recovery.startKind) s).events
  link := s.link.startAnswered }

theorem endUnconfigured_eq (s : State) : endUnconfigured s = endHold s.unconfiguredStart := by
  have hanswered : postPending (record (.unconfigured s.recovery.startKind) s) = { s with
      events := (record (.unconfigured s.recovery.startKind) s).events, link := s.link.startAnswered } := by
    rw [postPending_eq, record_eq]
  unfold endUnconfigured
  dsimp only
  rw [hanswered]
  rfl

end Sys2Proof.Machine
end

section
/-! What the recovery and the install leave of the Memory Port, the modes, the layouts and the buffers (R112, R159), and the
invariants that rest on it: claimants keep to their modes, layouts and buffers stay in range. -/

namespace Sys2Proof.Machine

/-! ### What a configuration copy can hold (R156, R180) -/

theorem field_lt (x lo n : Nat) : field x lo n < 2 ^ n := Nat.mod_lt _ (Nat.two_pow_pos n)

theorem firstRegion_eq_none_iff (detail : ConfigDetail) (ok : Fin 16 → Bool) :
    firstRegion detail ok = none ↔ ∀ r, ok r = true := by
  simp [firstRegion, mem_regionIndices]

theorem mem_domainIndices (d : Fin 4) : d ∈ domainIndices := by
  revert d
  decide

theorem firstDomain_eq_none_iff (detail : ConfigDetail) (ok : Fin 4 → Bool) :
    firstDomain detail ok = none ↔ ∀ d, ok d = true := by
  simp [firstDomain, mem_domainIndices]

/-- A valid layout has passed each check (R156). -/
theorem validate_eq_none_iff (start : Nat) (l : Layout) : validate start l = none ↔
    check1 start l = none ∧ check2 l = none ∧ check3 start l = none ∧ check4 l = none ∧ check5 l = none
      ∧ check6 l = none ∧ check7 l = none ∧ check8 l = none := by
  unfold validate
  cases check1 start l <;> cases check2 l <;> cases check3 start l <;> cases check4 l <;> cases check5 l <;>
    cases check6 l <;> cases check7 l <;> simp

theorem check1_eq_none_iff (start : Nat) (l : Layout) :
    check1 start l = none ↔ l.LogInRange ∧ start + l.logLength ≤ 0x80000 := by
  simp [check1, Layout.LogInRange, and_assoc]

theorem check2_eq_none_iff (l : Layout) : check2 l = none ↔ ∀ r : Fin 16, l.regions[r].inRange = true :=
  firstRegion_eq_none_iff _ _

theorem domains_of_fold (ws : List Word) (d : Fin 4) :
    (domainIndices.foldl (fun (v : Vector DomainCfg 4) (d : Fin 4) => v.set d (readDomain ws (72 + 4 * d.val)))
      Layout.cleared.domains)[d] = readDomain ws (72 + 4 * d.val) := by
  fin_cases d <;> simp [domainIndices]

/-- A copy that LOAD takes as valid holds a layout in range (R120, R156). -/
theorem readCopy_inRange {start : Nat} {ws : List Word} {q : Word} {l : Layout} (h : readCopy start ws = some (q, l)) :
    l.InRange ∧ l.LogInRange := by
  unfold readCopy at h
  split at h
  next =>
    split at h
    next => cases h
    next l' hl =>
      split at h
      next hv =>
        cases h
        rw [Option.isNone_iff_eq_none, validate_eq_none_iff, check1_eq_none_iff, check2_eq_none_iff] at hv
        obtain ⟨⟨hlog, -⟩, hregions, -⟩ := hv
        refine ⟨⟨fun r => ?_, fun d => ?_⟩, hlog⟩
        · have hr := hregions r
          simp only [RegionEntry.inRange, Bool.and_eq_true, decide_eq_true_eq] at hr
          obtain ⟨⟨⟨⟨h1, h2⟩, h3⟩, h4⟩, -⟩ := hr
          exact ⟨h1, h2, h3, h4⟩
        · obtain ⟨rs, -, rfl⟩ := Option.map_eq_some_iff.1 hl
          have hq := field_lt (wordOf ws (72 + 4 * d.val)) 0 7
          rw [domains_of_fold]
          exact ⟨Nat.succ_pos _, by simpa [readDomain] using hq⟩
      next => cases h
  next => cases h

theorem chooseCopy_cases {a b : Option (Word × Layout)} {c : Chosen} (h : chooseCopy a b = some c) :
    (∃ q, a = some (q, c.layout)) ∨ ∃ q, b = some (q, c.layout) := by
  unfold chooseCopy at h
  split at h
  next => cases h
  next => cases h; exact .inl ⟨_, rfl⟩
  next => cases h; exact .inr ⟨_, rfl⟩
  next => split at h <;> cases h <;> [exact .inr ⟨_, rfl⟩; exact .inl ⟨_, rfl⟩]

/-! ### The recovery (R118) -/

/-- A link's frame state: what neither a result nor a pending operation touches. -/
def Link.frame (l : Link) : Link := { l with result := .empty, pendingOp := .none }

theorem Link.received_eq_of_frame {l k : Link} (h : l.frame = k.frame) : l.received = k.received := by
  change l.frame.received = k.frame.received
  rw [h]

/-- What the recovery leaves of the Memory Port, the install, the link and the modes, and that it keeps the layouts in range. -/
structure RecoveryFrame (s t : State) : Prop where
  outer : OuterFrame s t
  install : t.install = s.install
  access : t.memPort.access = s.memPort.access
  stopped : t.memPort.stopped = s.memPort.stopped
  pointer : t.memPort.pointer = s.memPort.pointer
  frame : t.link.frame = s.link.frame
  data : s.link.result.data.length ≤ 24 → t.link.result.data.length ≤ 24
  noWaiting : s.port.waiting = none → t.port.waiting = none
  mode : t.mode = s.mode ∨ (s.mode ≠ .frozen ∧ (t.mode = .guarding ∨ t.mode = .unconfigured))
  layouts : s.LayoutsInRange → t.LayoutsInRange

theorem State.LayoutsInRange.congr {s t : State} (h : s.LayoutsInRange) (hl : t.layout = s.layout)
    (hs : t.staging = s.staging) (hc : t.recovery.chosen = s.recovery.chosen) : t.LayoutsInRange := by
  unfold State.LayoutsInRange
  rw [hl, hs, hc]
  exact h

theorem WorkFrame.recoveryFrame {s t : State} (h : WorkFrame s t) : RecoveryFrame s t :=
  ⟨h.outer, h.install, h.access, h.stopped, h.pointer, by rw [h.link], by rw [h.link]; exact id, h.noWaiting, .inl h.mode,
    fun hl => hl.congr h.layout h.staging (by rw [h.recovery])⟩

theorem RecoveryFrame.refl (s : State) : RecoveryFrame s s := (WorkFrame.refl s).recoveryFrame

theorem RecoveryFrame.trans {s t u : State} (h1 : RecoveryFrame s t) (h2 : RecoveryFrame t u) : RecoveryFrame s u := by
  refine ⟨OuterFrame.trans _ _ _ h1.outer h2.outer, h2.install.trans h1.install, h2.access.trans h1.access,
    h2.stopped.trans h1.stopped, h2.pointer.trans h1.pointer, h2.frame.trans h1.frame, fun h => h2.data (h1.data h),
    fun h => h2.noWaiting (h1.noWaiting h), ?_, fun h => h2.layouts (h1.layouts h)⟩
  obtain he | ⟨hf, hm⟩ := h2.mode
  · rw [he]; exact h1.mode
  · obtain he | ⟨hf', -⟩ := h1.mode
    · exact .inr ⟨he ▸ hf, hm⟩
    · exact .inr ⟨hf', hm⟩

/-- An update of the recovery record that keeps the chosen copy. -/
theorem State.setRecovery_recoveryFrame (s : State) (r : Recovery) (h : r.chosen = s.recovery.chosen) :
    RecoveryFrame s (s.setRecovery r) :=
  ⟨s.setRecovery_frame r, rfl, rfl, rfl, rfl, rfl, id, id, .inl rfl, fun hl => hl.congr rfl rfl h⟩

theorem RecoveryFrame.of_setRecovery {s t : State} {r : Recovery} (h : RecoveryFrame (s.setRecovery r) t)
    (hr : r.chosen = s.recovery.chosen) : RecoveryFrame s t :=
  (s.setRecovery_recoveryFrame r hr).trans h

theorem RecoveryFrame.of_record {s t : State} {e : Event} (h : RecoveryFrame (record e s) t) : RecoveryFrame s t :=
  (record_frame s e).recoveryFrame.trans h

theorem startAnswered_frame (l : Link) : l.startAnswered.frame = l.frame := by
  unfold Link.startAnswered
  cases l.pendingOp <;> rfl

theorem startAnswered_data (l : Link) (h : l.result.data.length ≤ 24) : l.startAnswered.result.data.length ≤ 24 := by
  unfold Link.startAnswered
  cases l.pendingOp <;> [exact h; exact Nat.zero_le 24; exact Nat.zero_le 24]

theorem foldl_record_fits (u : State) (l : List (Fin 4)) : ∀ t : State, t.events.length ≤ 16 →
    (l.foldl (fun t d => record (.domainFailed d (u.recovery.epochs[d] + 1)) t) t).events.length ≤ 16 := by
  induction l with
  | nil => exact fun _ => id
  | cons d rest ih => exact fun t h => ih _ ((record_frame t _).eventsFit h)

theorem started_recoveryFrame (s : State) (hf : s.mode ≠ .frozen) : RecoveryFrame s s.started := by
  refine ⟨⟨rfl, rfl, rfl, rfl, rfl, rfl, rfl, rfl, rfl, rfl, rfl, rfl, fun h => ?_⟩, rfl, rfl, rfl, rfl, ?_, ?_, id,
    .inr ⟨hf, .inl rfl⟩, fun hl => hl.congr rfl rfl rfl⟩
  · exact (record_frame _ _).eventsFit (foldl_record_fits s _ s h)
  · rw [started_link, startAnswered_frame]
  · rw [started_link]
    exact startAnswered_data _

theorem unconfiguredStart_recoveryFrame (s : State) (hf : s.mode ≠ .frozen) : RecoveryFrame s s.unconfiguredStart :=
  ⟨⟨rfl, rfl, rfl, rfl, rfl, rfl, rfl, rfl, rfl, rfl, rfl, rfl, (record_frame s _).eventsFit⟩, rfl, rfl, rfl, rfl,
    startAnswered_frame _, startAnswered_data _, id, .inr ⟨hf, .inr rfl⟩, fun hl => hl.congr rfl rfl rfl⟩

theorem endStarting_recoveryFrame (s : State) (hf : s.mode ≠ .frozen) : RecoveryFrame s (endStarting s) := by
  rw [endStarting_eq]
  exact (started_recoveryFrame s hf).trans (endHold_frame _).recoveryFrame

theorem endUnconfigured_recoveryFrame (s : State) (hf : s.mode ≠ .frozen) : RecoveryFrame s (endUnconfigured s) := by
  rw [endUnconfigured_eq]
  exact (unconfiguredStart_recoveryFrame s hf).trans (endHold_frame _).recoveryFrame

theorem unlessFrozen_recoveryFrame {s t : State} (h : s.mode ≠ .frozen → RecoveryFrame s t) :
    RecoveryFrame s (unlessFrozen s t) := by
  unfold unlessFrozen
  split
  next => exact s.setRecovery_recoveryFrame _ rfl
  next hf => exact h hf

theorem nextRestore_recoveryFrame (s : State) : RecoveryFrame s (nextRestore s) := by
  unfold nextRestore
  split
  next => exact unlessFrozen_recoveryFrame (endStarting_recoveryFrame s)
  next => exact s.setRecovery_recoveryFrame _ rfl

theorem recoveryRestoreTakes_recoveryFrame (s : State) (it : RecItem) (pos : RestorePos) (back : Bool) (data : Word) :
    RecoveryFrame s (recoveryRestoreTakes it pos back data s) := by
  unfold recoveryRestoreTakes
  split
  next => exact s.setRecovery_recoveryFrame _ rfl
  next => exact .of_setRecovery (nextRestore_recoveryFrame _) rfl
  all_goals
    exact .of_setRecovery (.of_record (nextRestore_recoveryFrame _)) rfl

theorem scanNext_recoveryFrame (s : State) : RecoveryFrame s (scanNext s) := by
  unfold scanNext
  split
  next => exact s.setRecovery_recoveryFrame _ rfl
  next => exact .of_setRecovery (nextRestore_recoveryFrame _) rfl

theorem scanSettles_recoveryFrame (s : State) (o : SlotOutcome) : RecoveryFrame s (scanSettles o s) :=
  .of_setRecovery (scanNext_recoveryFrame _) rfl

theorem scanClear_recoveryFrame (s : State) (j : Judgement) : RecoveryFrame s (scanClear j s) :=
  s.setRecovery_recoveryFrame _ rfl

theorem scanCleared_recoveryFrame (s : State) (j : Judgement) : RecoveryFrame s (scanCleared j s) :=
  .of_setRecovery (scanSettles_recoveryFrame _ _) rfl

theorem scanClearFault_recoveryFrame (s : State) (j : Judgement) : RecoveryFrame s (scanClearFault j s) :=
  .of_setRecovery (.of_record (scanSettles_recoveryFrame _ _)) rfl

theorem scanJudge_recoveryFrame (s : State) (d : Fin 4) (e l c w : Word) : RecoveryFrame s (scanJudge d e l c w s) := by
  unfold scanJudge
  split
  next => exact scanClear_recoveryFrame s _
  next =>
    split
    next => exact scanClear_recoveryFrame s _
    next =>
      split
      next => exact .of_setRecovery (scanSettles_recoveryFrame _ _) rfl
      next => exact scanClear_recoveryFrame s _

theorem scanTakes_recoveryFrame (s : State) (pos : ScanPos) (back : Bool) (data : Word) :
    RecoveryFrame s (scanTakes pos back data s) := by
  have moved : ∀ p b, RecoveryFrame s (s.setRecovery { s.recovery with pos := .scan p b }) := fun p b =>
    s.setRecovery_recoveryFrame _ rfl
  unfold scanTakes
  split
  next =>
    split
    next => exact scanSettles_recoveryFrame s _
    next =>
      split
      next => exact scanClear_recoveryFrame s _
      next => split <;> exact moved _ _
  next => exact moved _ _
  next => split <;> exact moved _ _
  next => exact moved _ _
  next =>
    split
    next => exact moved _ _
    next => exact scanJudge_recoveryFrame s _ _ _ _ _
  next =>
    split
    next => split <;> [exact scanCleared_recoveryFrame s _; exact scanClearFault_recoveryFrame s _]
    next => split <;> [exact moved _ _; exact scanCleared_recoveryFrame s _]

/-- The end of LOAD keeps the layouts in range, when the chosen one is. -/
theorem loadAdopts_recoveryFrame (s : State) (c : Chosen)
    (hc : s.LayoutsInRange → c.layout.InRange ∧ c.layout.LogInRange) : RecoveryFrame s (loadAdopts c s) := by
  refine unlessFrozen_recoveryFrame fun _ => RecoveryFrame.trans ?_ (scanNext_recoveryFrame _)
  refine ⟨⟨rfl, rfl, rfl, rfl, rfl, rfl, rfl, rfl, rfl, rfl, rfl, rfl, id⟩, rfl, rfl, rfl, rfl, rfl, id, id, .inl rfl, ?_⟩
  intro hl
  obtain ⟨-, -, hs, hslog, hchosen⟩ := id hl
  exact ⟨(hc hl).1, .inr (hc hl).2, hs, hslog, hchosen⟩

theorem setChosen_recoveryFrame (s : State) (r : Recovery) (c : Chosen) (hr : r.chosen = some c)
    (hc : c.layout.InRange ∧ c.layout.LogInRange) : RecoveryFrame s (s.setRecovery r) := by
  refine ⟨s.setRecovery_frame r, rfl, rfl, rfl, rfl, rfl, id, id, .inl rfl, fun hl => ?_⟩
  obtain ⟨ha, halog, hs, hslog, -⟩ := hl
  refine ⟨ha, halog, hs, hslog, fun c' hc' => ?_⟩
  rw [State.setRecovery_recovery, hr] at hc'
  cases hc'
  exact hc

theorem loadChooses_recoveryFrame (s : State) (ws : List Word) : RecoveryFrame s (loadChooses ws s) := by
  unfold loadChooses
  split
  next => exact unlessFrozen_recoveryFrame (endUnconfigured_recoveryFrame s)
  next c hchoose =>
    have hc : c.layout.InRange ∧ c.layout.LogInRange := by
      obtain ⟨q, h⟩ | ⟨q, h⟩ := chooseCopy_cases hchoose <;> exact readCopy_inRange h
    split
    next => exact (setChosen_recoveryFrame s _ c rfl hc).trans (loadAdopts_recoveryFrame _ c fun _ => hc)
    next => exact setChosen_recoveryFrame s _ c rfl hc

theorem loadEpochTakes_recoveryFrame (s : State) (ds : List (Fin 4)) (data : Word) :
    RecoveryFrame s (loadEpochTakes ds data s) := by
  unfold loadEpochTakes
  split
  next => exact .refl s
  next =>
    dsimp only
    split
    next c hc =>
      refine .of_setRecovery (loadAdopts_recoveryFrame _ c fun hl => ?_) rfl
      obtain ⟨-, -, -, -, hchosen⟩ := hl
      exact hchosen c hc
    next => exact s.setRecovery_recoveryFrame _ rfl

theorem recoveryTakes_recoveryFrame (s : State) (data : Word) : RecoveryFrame s (recoveryTakes data s) := by
  unfold recoveryTakes
  split
  next => exact .refl s
  next =>
    unfold loadCopyTakes
    split
    next => exact s.setRecovery_recoveryFrame _ rfl
    next => exact loadChooses_recoveryFrame s _
  next => exact loadEpochTakes_recoveryFrame s _ _
  next => exact scanTakes_recoveryFrame s _ _ _
  next => exact recoveryRestoreTakes_recoveryFrame s _ _ _ _

/-! ### The install (R159) -/

/-- What the install stream does with a word: nothing, a further step of the stream, the adoption, or a fault (R160 to R164). -/
theorem installTakes_cases (s : State) (data : Word) :
    (installTakes data s = s)
    ∨ (∃ st st', s.install = some st ∧ installTakes data s = s.setInstall st' ∧ st'.returnMode = st.returnMode)
    ∨ (∃ st st', s.install = some st ∧ installTakes data s = adopt st' s ∧ st'.returnMode = st.returnMode)
    ∨ (∃ st, s.install = some st ∧ installTakes data s = installFault st s) := by
  have advance : ∀ st, s.install = some st →
      (installAdvance st s = s)
      ∨ (∃ st', installAdvance st s = s.setInstall st' ∧ st'.returnMode = st.returnMode)
      ∨ ∃ st', installAdvance st s = adopt st' s ∧ st'.returnMode = st.returnMode := by
    intro st _
    unfold installAdvance installBeginsEpochs
    split
    next => exact .inr (.inl ⟨_, rfl, rfl⟩)
    next =>
      split
      next => exact .inr (.inl ⟨_, rfl, rfl⟩)
      next =>
        split
        next => exact .inr (.inr ⟨_, rfl, rfl⟩)
        next => exact .inr (.inl ⟨_, rfl, rfl⟩)
    next => exact .inl rfl
  unfold installTakes
  split
  next => exact .inl rfl
  next st hst =>
    have advanced : (installAdvance st s = s)
        ∨ (∃ st1 st', s.install = some st1 ∧ installAdvance st s = s.setInstall st' ∧ st'.returnMode = st1.returnMode)
        ∨ (∃ st1 st', s.install = some st1 ∧ installAdvance st s = adopt st' s ∧ st'.returnMode = st1.returnMode)
        ∨ (∃ st1, s.install = some st1 ∧ installAdvance st s = installFault st1 s) := by
      obtain h | ⟨st', h⟩ | ⟨st', h⟩ := advance st hst
      · exact .inl h
      · exact .inr (.inl ⟨st, st', hst, h⟩)
      · exact .inr (.inr (.inl ⟨st, st', hst, h⟩))
    split
    next => exact .inl rfl
    next =>
      dsimp only
      split
      next => exact .inr (.inr (.inl ⟨st, _, hst, rfl, rfl⟩))
      next => exact .inr (.inl ⟨st, _, hst, rfl, rfl⟩)
    next =>
      split
      next => split <;> [exact advanced; exact .inr (.inr (.inr ⟨st, hst, rfl⟩))]
      next => split <;> [exact .inr (.inl ⟨st, _, hst, rfl, rfl⟩); exact advanced]

/-- The answer to a pending INSTALL, as the link shows it (R147). -/
def Link.installAnswered (r : ResultCode) (l : Link) : Link :=
  match l.pendingOp with
  | .install tag => { l with pendingOp := .none, result := { tag := tag, code := 0x14, result := r, data := [] } }
  | _ => l

theorem postInstallResult_eq (r : ResultCode) (s : State) :
    postInstallResult r s = { s with link := s.link.installAnswered r } := by
  unfold postInstallResult Link.installAnswered
  cases h : s.link.pendingOp <;> rfl

theorem installAnswered_frame (r : ResultCode) (l : Link) : (l.installAnswered r).frame = l.frame := by
  unfold Link.installAnswered
  cases l.pendingOp <;> rfl

theorem installAnswered_data (r : ResultCode) (l : Link) (h : l.result.data.length ≤ 24) :
    (l.installAnswered r).result.data.length ≤ 24 := by
  unfold Link.installAnswered
  cases l.pendingOp <;> [exact h; exact Nat.zero_le 24; exact h]

/-- The state in which the staged layout has been adopted, before the hold ends (R162). -/
def State.adopted (s : State) (st : InstallStream) : State := { s with
  mode := st.returnMode
  install := none
  layout := s.staging
  geometry := s.staging.geometry
  pool := List.replicate s.staging.geometry.slots PoolEntry.freeEntry
  freeQueue := List.range s.staging.geometry.slots
  slotIndex := []
  retireQueue := []
  domains := Vector.ofFn (adoptedDomain s st)
  activeCopy := some st.target
  activeSequence := st.sequence
  events := (record (.installed st.sequence) s).events
  link := s.link.installAnswered .ok }

theorem adopt_eq (s : State) (st : InstallStream) : adopt st s = endHold (s.adopted st) := by
  unfold adopt
  dsimp only
  rw [postInstallResult_eq, record_eq]
  simp only [State.adopted, record_events]

/-- The install step a media fault names (R164). -/
def InstallStep.faultDetail : InstallStep → InstallDetail
  | .tags _ => .tags
  | _ => .copy

/-- The working state that a media fault of the install leaves, before STARTING is entered (R164). -/
def State.installFailed (s : State) (st : InstallStream) : State := { s with
  events := (record (.installFailed st.step.faultDetail)
    (record (.mediaFault .install none (installWrite s st).1) s)).events
  link := s.link.installAnswered .media }

theorem installFault_eq (s : State) (st : InstallStream) :
    installFault st s = enterStarting .warm (s.installFailed st) := by
  have hdetail : installFault st s = enterStarting .warm (postInstallResult .media
      (record (.installFailed st.step.faultDetail) (record (.mediaFault .install none (installWrite s st).1) s))) := by
    unfold installFault InstallStep.faultDetail
    rfl
  rw [hdetail, postInstallResult_eq, record_eq, record_eq]
  simp only [State.installFailed, record_events, record_mask]

end Sys2Proof.Machine
end

section
/-! The invariants of the modes and of the ranges, effect by effect: claimants keep to their modes (R112, R113), layouts and buffers
stay in range (R2, R9, R134, R138, R168), and a begun access is never cut (R104). -/

namespace Sys2Proof.Machine

/-! ### A begun access (R104) -/

/-- An access in progress stays, but for its claimant. -/
def KeepsAccess (s t : State) : Prop :=
  ∀ a, s.memPort.access = some a → ∃ orphan, t.memPort.access = some { a with orphan := orphan }

theorem KeepsAccess.of_eq {s t : State} (h : t.memPort.access = s.memPort.access) : KeepsAccess s t :=
  fun a ha => ⟨a.orphan, h.trans ha⟩

theorem KeepsAccess.trans {s t u : State} (h1 : KeepsAccess s t) (h2 : KeepsAccess t u) : KeepsAccess s u := by
  intro a ha
  obtain ⟨o, ho⟩ := h1 a ha
  obtain ⟨o', ho'⟩ := h2 _ ho
  exact ⟨o', ho'⟩

theorem settleStep_keepsAccess {s u : State} (h : KeepsAccess s u) (b : Bool) : KeepsAccess s (settleStep b u) :=
  h.trans fun a ha => ⟨a.orphan, (settleStep_frame b u).kept a ha⟩

theorem enterStarting_keepsAccess (k : StartKind) (s : State) : KeepsAccess s (enterStarting k s) := by
  intro a ha
  simp only [enterStarting, stoppedAccess, ha, Option.map_some]
  split
  next => exact ⟨a.orphan, rfl⟩
  next => exact ⟨true, rfl⟩

theorem takeReset_keepsAccess (s : State) : KeepsAccess s (takeReset s) :=
  KeepsAccess.trans (t := resetClears { s with resetTaken := true }) (.of_eq rfl) (enterStarting_keepsAccess .reset _)

theorem tickBody_access (s : State) : (tickBody s).memPort.access = s.memPort.access := by
  obtain ⟨r, -, h, -⟩ | ⟨-, h⟩ | h := tickBody_cases s <;> rw [h]
  · rfl
  · exact (tickDomains_frame s).access

theorem resetFalls_keepsAccess (s : State) : KeepsAccess s (resetFalls s) := by
  obtain ⟨-, h⟩ | ⟨-, -, h⟩ | ⟨-, -, h⟩ | ⟨-, -, -, h⟩ := resetFalls_cases s <;> rw [h]
  · exact .of_eq rfl
  · exact .of_eq rfl
  · exact .of_eq rfl
  · exact takeReset_keepsAccess { s with resetAsserted := true }

theorem resetRises_keepsAccess (s : State) : KeepsAccess s (resetRises s) := by
  obtain ⟨-, h⟩ | ⟨-, h⟩ := resetRises_cases s <;> rw [h]
  · exact settleStep_keepsAccess (.of_eq (by rfl)) _
  · exact .of_eq rfl

theorem pfwFalls_keepsAccess (s : State) : KeepsAccess s (pfwFalls s) := by
  obtain ⟨-, h⟩ | ⟨-, -, h⟩ | ⟨-, -, h⟩ := pfwFalls_cases s <;> rw [h] <;> exact .of_eq rfl

theorem pfwRises_keepsAccess (s : State) : KeepsAccess s (pfwRises s) := by
  obtain ⟨-, h⟩ | ⟨-, -, h⟩ | ⟨-, -, -, h⟩ | ⟨-, -, -, h⟩ := pfwRises_cases s <;> rw [h]
  · exact .of_eq rfl
  · exact .of_eq rfl
  · exact settleStep_keepsAccess (takeReset_keepsAccess { s with pfwAsserted := false }) _
  · exact settleStep_keepsAccess (enterStarting_keepsAccess .warm { s with pfwAsserted := false }) _

theorem busCycle_keepsAccess (b : BusCycle) (s : State) : KeepsAccess s (busCycle b s) := by
  unfold busCycle
  split
  next => exact settleStep_keepsAccess (.of_eq (arrive_frame s b).access) _
  next => exact .of_eq rfl

theorem endCycle_keepsAccess (s : State) : KeepsAccess s (endCycle s) := by
  obtain h | h | ⟨-, h | h⟩ := endCycle_cases s <;> rw [h]
  · exact settleStep_keepsAccess (.of_eq (by rfl)) _
  all_goals exact .of_eq rfl

theorem RequestEffect.keepsAccess {s t : State} (h : RequestEffect s t) : KeepsAccess s t := by
  cases h with
  | installed => exact settleStep_keepsAccess (.of_eq (by rfl)) _
  | aborted tag d data =>
    exact settleStep_keepsAccess (.of_eq (abortUpdate_frame (post tag 0x20 .ok data s) d .requested).access) _
  | restarted tag =>
    exact settleStep_keepsAccess (enterStarting_keepsAccess .restart
      { s with link := { s.link with pendingOp := .restart tag } }) _
  | _ => exact .of_eq rfl

/-- Settles O8: every effect but a completion, POWER_UP and SUPPLY_LOSS keeps the access. -/
theorem begunAccessIsNeverCut : Obligations.BegunAccessIsNeverCut := by
  intro c s t a ha h hflaw hloss hup
  have keeps : KeepsAccess s t := by
    cases exec_cases c s t h with
    | same => exact .of_eq rfl
    | poweredUp straps pfw reset hc => exact absurd hc (hup straps pfw reset)
    | supplyLost hc => exact absurd hc hloss
    | ticked => exact settleStep_keepsAccess (.of_eq (tickBody_access s)) _
    | resetFell straps => exact KeepsAccess.trans (t := showStraps straps s) (.of_eq rfl) (resetFalls_keepsAccess _)
    | resetRose straps => exact KeepsAccess.trans (t := showStraps straps s) (.of_eq rfl) (resetRises_keepsAccess _)
    | pfwFell straps => exact KeepsAccess.trans (t := showStraps straps s) (.of_eq rfl) (pfwFalls_keepsAccess _)
    | pfwRose straps => exact KeepsAccess.trans (t := showStraps straps s) (.of_eq rfl) (pfwRises_keepsAccess _)
    | cycled b => exact busCycle_keepsAccess b s
    | cycleEnded => exact endCycle_keepsAccess s
    | completed f a' ha' hc => rw [hflaw] at hc; cases hc
    | framed _ h => obtain ⟨l, rfl, -⟩ := h; exact .of_eq rfl
    | requested u _ h ht =>
      obtain ⟨l, rfl, -⟩ := h
      exact KeepsAccess.trans (.of_eq rfl) ht.keepsAccess
  exact keeps a ha

/-! ### Claimants and modes (R104, R112, R113, R159) -/

theorem State.ClaimantsFit.congr {s t : State} (h : s.ClaimantsFit) (hm : t.mode = s.mode) (hi : t.install = s.install)
    (ha : t.memPort.access = s.memPort.access) (hs : t.memPort.stopped = s.memPort.stopped) : t.ClaimantsFit := by
  unfold State.ClaimantsFit
  rw [hm, hi, ha, hs]
  exact h

theorem WorkFrame.claimantsFit {s t : State} (h : WorkFrame s t) (hs : s.ClaimantsFit) : t.ClaimantsFit :=
  hs.congr h.mode h.install h.access h.stopped

/-- A claimant's next access is its own, and not an orphan. -/
theorem accessOf_claimant {s : State} {c : Claimant} {a : Access} (h : accessOf s c = some a) :
    a.claimant = c ∧ a.orphan = false := by
  have read : ∀ c a, (readAccess c a).claimant = c ∧ (readAccess c a).orphan = false := fun _ _ => ⟨rfl, rfl⟩
  have back : ∀ c b a w, (writeOrBack c b a w).claimant = c ∧ (writeOrBack c b a w).orphan = false := by
    intro c b a w
    cases b <;> exact ⟨rfl, rfl⟩
  have restore : ∀ c e i r p b,
      (restoreAccess c s e i r p b).claimant = c ∧ (restoreAccess c s e i r p b).orphan = false := by
    intro c e i r p b
    cases p <;> [exact read _ _; exact back _ _ _ _; exact back _ _ _ _]
  cases c with
  | host =>
    simp only [accessOf, hostAccess] at h
    split at h
    next => split at h <;> cases h <;> exact ⟨rfl, rfl⟩
    next => split at h <;> cases h <;> exact ⟨rfl, rfl⟩
    next => cases h
  | copy =>
    obtain ⟨k, -, rfl⟩ := Option.map_eq_some_iff.1 h
    unfold copyAccess
    split <;> [exact read _ _; exact back _ _ _ _]
  | commit =>
    obtain ⟨k, -, rfl⟩ := Option.map_eq_some_iff.1 h
    exact back _ _ _ _
  | restore d =>
    simp only [accessOf, restoreStreamAccess] at h
    split at h
    next => cases h
    next => obtain ⟨i, -, rfl⟩ := Option.map_eq_some_iff.1 h; exact restore _ _ _ _ _ _
  | install =>
    obtain ⟨st, -, h⟩ := Option.bind_eq_some_iff.1 h
    unfold installAccess at h
    split at h
    next => cases h
    next => cases h; exact read _ _
    next => cases h; exact back _ _ _ _
  | retire =>
    obtain ⟨i, -, rfl⟩ := Option.map_eq_some_iff.1 h
    exact back _ _ _ _
  | recovery =>
    simp only [accessOf] at h
    split at h
    next =>
      unfold recoveryAccess at h
      split at h <;> cases h
      next => exact read _ _
      next => exact read _ _
      next => exact back _ _ _ _
      next => exact read _ _
      next => exact restore _ _ _ _ _ _
    next => cases h

/-- A grant keeps the invariant: the recovery claims in STARTING only, the install where its stream stands. -/
theorem Granted.claimantsFit {u t : State} (h : Granted u t) (hu : u.ClaimantsFit) : t.ClaimantsFit := by
  obtain ⟨haccess, hinstall, hfrozen⟩ := id hu
  have hrest : t.mode = u.mode ∧ t.install = u.install ∧ t.memPort.stopped = u.memPort.stopped := by
    rw [h.only]
    exact ⟨rfl, rfl, rfl⟩
  obtain ⟨hm, hi, hs⟩ := hrest
  cases hua : u.memPort.access with
  | some a => exact hu.congr hm hi ((h.kept a hua).trans hua.symm) hs
  | none =>
    cases hus : u.memPort.stopped with
    | true => exact hu.congr hm hi (h.held hus) hs
    | false =>
      by_cases hst : u.standing = []
      · exact hu.congr hm hi ((h.idle hua hus hst).trans hua.symm) hs
      · obtain ⟨c, hc, hac⟩ := h.begun hua hus hst
        rw [mem_standing_iff_ready] at hc
        refine ⟨fun a ha ho => ?_, by rw [hi, hm]; exact hinstall, by rw [hm, hs]; exact hfrozen⟩
        obtain ⟨rfl, -⟩ := accessOf_claimant (hac.symm.trans ha)
        rw [hm]
        refine ⟨fun hr => ?_, fun hr => ?_⟩
        · rw [hr] at hc
          exact .inl hc.1
        · rw [hr] at hc
          obtain ⟨st, hst', -⟩ := hc
          exact (hinstall st hst').1

theorem loadBegin_claimantsFit {s : State} (h : s.ClaimantsFit) : (loadBegin s).ClaimantsFit := by
  obtain ⟨haccess, hinstall, hfrozen⟩ := id h
  unfold loadBegin
  split
  next hl =>
    have hm : s.mode = .starting := by
      simp only [State.loadReady, Bool.and_eq_true, decide_eq_true_eq] at hl
      exact hl.1.1.1.1
    exact ⟨haccess, hinstall, fun hf => by rw [hm] at hf; cases hf⟩
  next => exact h

theorem settleStep_claimantsFit {u : State} (h : u.ClaimantsFit) (b : Bool) : (settleStep b u).ClaimantsFit := by
  have h1 := (arbitrate_granted b _).claimantsFit (loadBegin_claimantsFit h)
  unfold settleStep
  dsimp only
  split
  next => exact (arbitrate_granted _ _).claimantsFit ((arrive_frame _ _).claimantsFit h1)
  next => exact h1

/-- At an entry into STARTING only the host's access keeps its claimant. -/
theorem enterStarting_claimantsFit (k : StartKind) (s : State) : (enterStarting k s).ClaimantsFit := by
  refine ⟨fun a ha ho => ?_, fun st hst => ?_, fun hf => Mode.noConfusion hf⟩
  case refine_2 =>
    have hnone : none = some st := hst
    cases hnone
  obtain ⟨a', -, hstop⟩ := Option.map_eq_some_iff.1 (show stoppedAccess s = some a from ha)
  split at hstop
  next hh =>
    subst hstop
    exact ⟨fun hr => Claimant.noConfusion (hh.1.symm.trans hr), fun hr => Claimant.noConfusion (hh.1.symm.trans hr)⟩
  next =>
    subst hstop
    cases ho

theorem tickBody_claimantsFit {s : State} (h : s.ClaimantsFit) : (tickBody s).ClaimantsFit := by
  obtain ⟨r, -, he, -⟩ | ⟨-, he⟩ | he := tickBody_cases s <;> rw [he]
  · exact h.congr rfl rfl rfl rfl
  · exact (tickDomains_frame s).claimantsFit h
  · exact h

theorem enterFrozen_claimantsFit {s : State} (h : s.ClaimantsFit) : (enterFrozen s).ClaimantsFit :=
  ⟨fun _ _ _ => ⟨fun _ => .inr rfl, fun _ => .inr rfl⟩, fun st hst => ⟨.inr rfl, (h.2.1 st hst).2⟩, fun _ => rfl⟩

theorem resetFalls_claimantsFit {s : State} (h : s.ClaimantsFit) : (resetFalls s).ClaimantsFit := by
  obtain ⟨-, he⟩ | ⟨-, -, he⟩ | ⟨-, -, he⟩ | ⟨-, -, -, he⟩ := resetFalls_cases s <;> rw [he]
  · exact h
  · exact h.congr rfl rfl rfl rfl
  · exact h.congr rfl rfl rfl rfl
  · exact enterStarting_claimantsFit _ _

theorem resetRises_claimantsFit {s : State} (h : s.ClaimantsFit) : (resetRises s).ClaimantsFit := by
  obtain ⟨-, he⟩ | ⟨-, he⟩ := resetRises_cases s <;> rw [he]
  · exact settleStep_claimantsFit (by exact h) _
  · exact h

theorem pfwFalls_claimantsFit {s : State} (h : s.ClaimantsFit) : (pfwFalls s).ClaimantsFit := by
  obtain ⟨-, he⟩ | ⟨-, -, he⟩ | ⟨-, -, he⟩ := pfwFalls_cases s <;> rw [he]
  · exact h
  · exact h.congr rfl rfl rfl rfl
  · exact enterFrozen_claimantsFit (by exact h)

theorem pfwRises_claimantsFit {s : State} (h : s.ClaimantsFit) : (pfwRises s).ClaimantsFit := by
  obtain ⟨-, he⟩ | ⟨-, -, he⟩ | ⟨-, -, -, he⟩ | ⟨-, -, -, he⟩ := pfwRises_cases s <;> rw [he]
  · exact h
  · exact h.congr rfl rfl rfl rfl
  · exact settleStep_claimantsFit (enterStarting_claimantsFit _ _) _
  · exact settleStep_claimantsFit (enterStarting_claimantsFit _ _) _

theorem busCycle_claimantsFit {s : State} (h : s.ClaimantsFit) (b : BusCycle) : (busCycle b s).ClaimantsFit := by
  unfold busCycle
  split
  next => exact settleStep_claimantsFit ((arrive_frame s b).claimantsFit h) _
  next => exact h.congr rfl rfl rfl rfl

theorem endCycle_claimantsFit {s : State} (h : s.ClaimantsFit) : (endCycle s).ClaimantsFit := by
  obtain he | he | ⟨-, he | he⟩ := endCycle_cases s <;> rw [he]
  · exact settleStep_claimantsFit (by exact h) _
  all_goals exact h

/-- Outside STARTING, INSTALLING and FROZEN no access of the recovery or the install is in progress, and no install stands. -/
theorem State.ClaimantsFit.of_not_busy {s t : State} (h : s.ClaimantsFit) (hb : s.mode.isBusy = false)
    (ha : t.memPort.access = s.memPort.access) (hf : t.mode ≠ .frozen)
    (hi : ∀ st, t.install = some st →
      s.install = some st ∨ (t.mode = .installing ∧ (st.returnMode = .guarding ∨ st.returnMode = .bypass))) :
    t.ClaimantsFit := by
  obtain ⟨haccess, hinstall, -⟩ := h
  have notBusy : ∀ {p : Prop}, s.mode = .starting ∨ s.mode = .installing ∨ s.mode = .frozen → p := by
    rintro p (hm | hm | hm) <;> rw [hm] at hb <;> cases hb
  refine ⟨fun a hta ho => ?_, fun st hst => ?_, fun hm => absurd hm hf⟩
  · obtain ⟨hr, hin⟩ := haccess a (ha ▸ hta) ho
    exact ⟨fun hc => notBusy ((hr hc).imp_right .inr), fun hc => notBusy (.inr (hin hc))⟩
  · obtain hs | ⟨hm, hret⟩ := hi st hst
    · exact notBusy (.inr (hinstall st hs).1)
    · exact ⟨.inl hm, hret⟩

theorem RequestEffect.claimantsFit {s t : State} (h : RequestEffect s t) (hs : s.ClaimantsFit) : t.ClaimantsFit := by
  cases h with
  | moded tag m hm hm' =>
    refine hs.of_not_busy ?_ rfl ?_ fun st hst => .inl hst
    · obtain hm | hm := hm <;> rw [hm] <;> rfl
    · show m ≠ .frozen
      obtain rfl | rfl := hm' <;> decide
  | installed tag hb =>
    refine settleStep_claimantsFit (hs.of_not_busy hb (by rfl) (fun h => Mode.noConfusion h) fun st hst => .inr ⟨by rfl, ?_⟩) _
    cases hst
    dsimp only
    split <;> [exact .inr rfl; exact .inl rfl]
  | aborted => exact settleStep_claimantsFit ((abortUpdate_frame _ _ _).claimantsFit (by exact hs)) _
  | restarted => exact settleStep_claimantsFit (enterStarting_claimantsFit _ _) _
  | _ => exact hs

theorem adopt_claimantsFit {s : State} (ha : s.memPort.access = none) (st : InstallStream)
    (hr : st.returnMode = .guarding ∨ st.returnMode = .bypass) : (adopt st s).ClaimantsFit := by
  rw [adopt_eq]
  refine (endHold_frame _).claimantsFit ⟨fun a hta => ?_, fun st' hst' => ?_, fun hm => ?_⟩
  · have hnone : s.memPort.access = some a := hta
    rw [ha] at hnone
    cases hnone
  · have hnone : none = some st' := hst'
    cases hnone
  · have hm' : st.returnMode = .frozen := hm
    obtain hr | hr := hr <;> rw [hr] at hm' <;> cases hm'

theorem installTakes_claimantsFit {s : State} (h : s.ClaimantsFit) (ha : s.memPort.access = none) (data : Word) :
    (installTakes data s).ClaimantsFit := by
  obtain ⟨haccess, hinstall, hfrozen⟩ := id h
  obtain he | ⟨st, st', hst, he, hr⟩ | ⟨st, st', hst, he, hr⟩ | ⟨st, hst, he⟩ := installTakes_cases s data <;> rw [he]
  · exact h
  · refine ⟨haccess, fun st1 hst1 => ?_, hfrozen⟩
    cases hst1
    rw [hr]
    exact hinstall st hst
  · exact adopt_claimantsFit ha st' (hr ▸ (hinstall st hst).2)
  · exact enterStarting_claimantsFit _ _

/-- In STARTING no install stands, so the recovery may end STARTING. -/
theorem RecoveryFrame.claimantsFit {s t : State} (h : RecoveryFrame s t) (hs : s.ClaimantsFit)
    (ha : s.memPort.access = none) (hm : s.mode = .starting) : t.ClaimantsFit := by
  obtain ⟨-, hinstall, -⟩ := hs
  refine ⟨fun a hta => ?_, fun st hst => ?_, fun hf => ?_⟩
  · rw [h.access, ha] at hta
    cases hta
  · obtain ⟨hm' | hm', -⟩ := hinstall st (h.install ▸ hst) <;> rw [hm] at hm' <;> cases hm'
  · obtain he | ⟨-, he | he⟩ := h.mode
    · rw [he, hm] at hf
      cases hf
    all_goals rw [he] at hf; cases hf

/-- What the install's word does in FROZEN: nothing, or a further step of the stream (R130). -/
theorem deliverFrozen_install_cases (s : State) (data : Word) :
    deliverFrozen .install data s = s
      ∨ ∃ st st', s.install = some st ∧ deliverFrozen .install data s = s.setInstall st' ∧ st'.returnMode = st.returnMode := by
  have heq : deliverFrozen .install data s =
      match (installTakes data s).install with
      | none => s
      | some st => s.setInstall st := rfl
  have hnone : ∀ st, (adopt st s).install = none := fun st => by rw [adopt_eq]; exact (endHold_frame _).install
  rw [heq]
  obtain he | ⟨st, st', hst, he, hr⟩ | ⟨st, st', hst, he, hr⟩ | ⟨st, hst, he⟩ := installTakes_cases s data <;> rw [he]
  · cases hst : s.install with
    | none => exact .inl rfl
    | some st => exact .inr ⟨st, st, rfl, rfl, rfl⟩
  · exact .inr ⟨st, st', hst, rfl, hr⟩
  · rw [hnone]
    exact .inl rfl
  · exact .inl rfl

theorem deliverFrozen_claimantsFit {s : State} (h : s.ClaimantsFit) (hf : s.mode = .frozen) (c : Claimant) (data : Word) :
    (deliverFrozen c data s).ClaimantsFit := by
  by_cases hc : c = .install
  · subst hc
    obtain he | ⟨st, st', hst, he, hr⟩ := deliverFrozen_install_cases s data <;> rw [he]
    · exact h
    · obtain ⟨haccess, hinstall, hfrozen⟩ := h
      refine ⟨haccess, fun st1 hst1 => ?_, hfrozen⟩
      cases hst1
      rw [hr]
      exact hinstall st hst
  · have hinstall : (deliverFrozen c data s).install = s.install := by
      cases c with
      | install => exact absurd rfl hc
      | host => exact (hostTakes_frame s data).install
      | recovery => exact (recoveryTakes_recoveryFrame s data).install
      | _ => unfold deliverFrozen; dsimp only; repeat' split <;> try rfl
    obtain ⟨-, he⟩ | ⟨k, he⟩ | ⟨k, he⟩ | ⟨d, st, he⟩ | ⟨i, he⟩ | ⟨b, he⟩ | ⟨-, r, he⟩ := deliverFrozen_cases s c data hf
    · rw [he]
      exact (hostTakes_frame s data).claimantsFit h
    all_goals
      rw [he] at hinstall ⊢
      exact h.congr rfl hinstall rfl rfl

theorem handOver_claimantsFit {s : State} (h : s.ClaimantsFit) (ha : s.memPort.access = none) (a : Access) (data : Word)
    (hr : a.orphan = false → a.claimant = .recovery → s.mode = .starting ∨ s.mode = .frozen) :
    (handOver a data s).ClaimantsFit := by
  unfold handOver
  split
  next => exact h
  next ho =>
    split
    next hf => exact deliverFrozen_claimantsFit h hf _ _
    next hf =>
      cases hc : a.claimant with
      | host => exact (hostTakes_frame s data).claimantsFit h
      | copy => exact (copyTakes_frame s data).claimantsFit h
      | commit => exact (commitTakes_frame s data).claimantsFit h
      | restore d => exact (restoreTakes_frame s d data).claimantsFit h
      | install => exact installTakes_claimantsFit h ha data
      | retire => exact (retireTakes_frame s data).claimantsFit h
      | recovery =>
        have hm : s.mode = .starting := (hr (by simpa using ho) hc).resolve_right hf
        exact (recoveryTakes_recoveryFrame s data).claimantsFit h ha hm

theorem completeAccess_claimantsFit {s : State} (h : s.ClaimantsFit) {a : Access} (ha : s.memPort.access = some a)
    (f : Option Word) : (completeAccess f a s).ClaimantsFit := by
  obtain ⟨haccess, hinstall, hfrozen⟩ := h
  have hfinished : (finishAccess f a s).ClaimantsFit := by
    refine ⟨fun b hb => ?_, hinstall, hfrozen⟩
    have hnone : none = some b := hb
    cases hnone
  exact settleStep_claimantsFit (handOver_claimantsFit hfinished rfl a _ fun ho hc => (haccess a ha ho).1 hc) true

theorem CommandEffect.claimantsFit {c : Instr} {s t : State} (h : CommandEffect c s t) (hs : s.ClaimantsFit) :
    t.ClaimantsFit := by
  have hreset : ∀ u : State, u.memPort.access = none → u.install = none → u.mode = .starting → u.ClaimantsFit := by
    intro u ha hi hm
    refine ⟨fun a hua => ?_, fun st hst => ?_, fun hf => ?_⟩
    · rw [ha] at hua; cases hua
    · rw [hi] at hst; cases hst
    · rw [hm] at hf; cases hf
  cases h with
  | same => exact hs
  | poweredUp => exact hreset _ rfl rfl rfl
  | supplyLost => exact hreset _ rfl rfl rfl
  | ticked => exact settleStep_claimantsFit (tickBody_claimantsFit hs) _
  | resetFell straps => exact resetFalls_claimantsFit (s := showStraps straps s) hs
  | resetRose straps => exact resetRises_claimantsFit (s := showStraps straps s) hs
  | pfwFell straps => exact pfwFalls_claimantsFit (s := showStraps straps s) hs
  | pfwRose straps => exact pfwRises_claimantsFit (s := showStraps straps s) hs
  | cycled b => exact busCycle_claimantsFit hs b
  | cycleEnded => exact endCycle_claimantsFit hs
  | completed f a ha => exact completeAccess_claimantsFit hs ha f
  | framed _ h => obtain ⟨l, rfl, -⟩ := h; exact hs
  | requested u _ h ht => obtain ⟨l, rfl, -⟩ := h; exact ht.claimantsFit hs

/-- Settles O11: every effect of a command keeps the invariant. -/
theorem claimantsKeepToTheirModes : Obligations.ClaimantsKeepToTheirModes := by
  intro s t hs h
  obtain rfl | ⟨c, rest, -, he⟩ := step_cases h
  · exact hs
  · exact (exec_cases c _ t he).claimantsFit hs

end Sys2Proof.Machine
end

section
/-! The buffers and the layouts through every command (R2, R9, R43, R118, R134, R138, R168). -/

namespace Sys2Proof.Machine

/-! ### The recovery record at the end of a step -/

theorem arbitrate_recovery (b : Bool) (s : State) : (arbitrate b s).recovery = s.recovery := by
  rw [(arbitrate_granted b s).only]

/-- The end of a step changes the recovery record only where LOAD begins. -/
theorem settleStep_recovery (b : Bool) (s : State) : (settleStep b s).recovery = (loadBegin s).recovery := by
  unfold settleStep
  dsimp only
  split
  next => rw [arbitrate_recovery, (arrive_frame _ _).recovery, arbitrate_recovery]
  next => exact arbitrate_recovery _ _

theorem loadBegin_chosen (s : State) : (loadBegin s).recovery.chosen = s.recovery.chosen := by
  unfold loadBegin
  split <;> rfl

/-! ### Ranges through the shared operations -/

/-- The sizes of the buffers and the ranges of the layouts are kept. -/
structure KeepsRanges (s t : State) : Prop where
  buffers : s.BuffersFit → t.BuffersFit
  layouts : s.LayoutsInRange → t.LayoutsInRange

theorem KeepsRanges.trans {s t u : State} (h1 : KeepsRanges s t) (h2 : KeepsRanges t u) : KeepsRanges s u :=
  ⟨fun h => h2.buffers (h1.buffers h), fun h => h2.layouts (h1.layouts h)⟩

theorem KeepsRanges.refl (s : State) : KeepsRanges s s := ⟨id, id⟩

theorem RecoveryFrame.keepsRanges {s t : State} (h : RecoveryFrame s t) : KeepsRanges s t :=
  ⟨fun ⟨he, hd, hr⟩ => ⟨h.outer.eventsFit he, h.data hd, (Link.received_eq_of_frame h.frame).symm ▸ hr⟩, h.layouts⟩

theorem WorkFrame.keepsRanges {s t : State} (h : WorkFrame s t) : KeepsRanges s t := h.recoveryFrame.keepsRanges

theorem settleStep_keepsRanges {s u : State} (h : KeepsRanges s u) (b : Bool) : KeepsRanges s (settleStep b u) := by
  have hf := settleStep_frame b u
  refine h.trans ⟨fun ⟨he, hd, hr⟩ => ⟨hf.eventsFit he, by rw [hf.link]; exact hd, by rw [hf.link]; exact hr⟩, fun hl => ?_⟩
  exact hl.congr hf.layout hf.staging (by rw [settleStep_recovery, loadBegin_chosen])

theorem Layout.cleared_inRange : Layout.cleared.InRange := by
  refine ⟨fun r => ?_, fun d => ?_⟩
  · simp [Layout.cleared]
  · simp [Layout.cleared]

/-- The tables are cleared and nothing is chosen (R118). -/
theorem LayoutsInRange.of_cleared {s t : State} (h : s.LayoutsInRange) (hl : t.layout = .cleared)
    (hs : t.staging = s.staging ∨ t.staging = .cleared) (hc : t.recovery.chosen = none) : t.LayoutsInRange := by
  obtain ⟨-, -, hstaging, hlog, -⟩ := h
  refine ⟨hl ▸ Layout.cleared_inRange, .inl (hl ▸ rfl), ?_, ?_, fun c hcc => by rw [hc] at hcc; cases hcc⟩
  · obtain hs | hs := hs <;> rw [hs] <;> [exact hstaging; exact Layout.cleared_inRange]
  · obtain hs | hs := hs <;> rw [hs] <;> [exact hlog; exact .inl rfl]

theorem enterStarting_keepsRanges (k : StartKind) (s : State) : KeepsRanges s (enterStarting k s) :=
  ⟨id, fun h => LayoutsInRange.of_cleared h rfl (.inl rfl) rfl⟩

theorem takeReset_keepsRanges (s : State) : KeepsRanges s (takeReset s) :=
  ⟨fun _ => ⟨Nat.zero_le 16, Nat.zero_le 24, Nat.zero_le 29⟩, fun h => LayoutsInRange.of_cleared h rfl (.inr rfl) rfl⟩

theorem tickBody_keepsRanges (s : State) : KeepsRanges s (tickBody s) := by
  obtain ⟨r, -, h, hc, -⟩ | ⟨-, h⟩ | h := tickBody_cases s <;> rw [h]
  · exact (s.setRecovery_recoveryFrame r hc).keepsRanges
  · exact (tickDomains_frame s).keepsRanges
  · exact .refl s

theorem showStraps_keepsRanges (straps : Straps) (s : State) : KeepsRanges s (showStraps straps s) := ⟨id, id⟩

theorem resetFalls_keepsRanges (s : State) : KeepsRanges s (resetFalls s) := by
  obtain ⟨-, h⟩ | ⟨-, -, h⟩ | ⟨-, -, h⟩ | ⟨-, -, -, h⟩ := resetFalls_cases s <;> rw [h]
  · exact .refl s
  · exact ⟨id, id⟩
  · refine ⟨fun _ => ⟨Nat.zero_le 16, Nat.zero_le 24, Nat.zero_le 29⟩, fun ⟨hl, hlog, _, _, hc⟩ => ?_⟩
    exact ⟨hl, hlog, Layout.cleared_inRange, .inl rfl, hc⟩
  · exact KeepsRanges.trans (s := s) (t := { s with resetAsserted := true }) ⟨id, id⟩ (takeReset_keepsRanges _)

theorem resetRises_keepsRanges (s : State) : KeepsRanges s (resetRises s) := by
  obtain ⟨-, h⟩ | ⟨-, h⟩ := resetRises_cases s <;> rw [h]
  · exact settleStep_keepsRanges (by exact ⟨id, id⟩) _
  · exact .refl s

theorem pfwFalls_keepsRanges (s : State) : KeepsRanges s (pfwFalls s) := by
  obtain ⟨-, h⟩ | ⟨-, -, h⟩ | ⟨-, -, h⟩ := pfwFalls_cases s <;> rw [h]
  · exact .refl s
  · exact ⟨id, id⟩
  · exact ⟨id, id⟩

theorem pfwRises_keepsRanges (s : State) : KeepsRanges s (pfwRises s) := by
  obtain ⟨-, h⟩ | ⟨-, -, h⟩ | ⟨-, -, -, h⟩ | ⟨-, -, -, h⟩ := pfwRises_cases s <;> rw [h]
  · exact .refl s
  · exact ⟨id, id⟩
  · exact settleStep_keepsRanges
      (KeepsRanges.trans (s := s) (t := { s with pfwAsserted := false }) ⟨id, id⟩ (takeReset_keepsRanges _)) _
  · exact settleStep_keepsRanges
      (KeepsRanges.trans (s := s) (t := { s with pfwAsserted := false }) ⟨id, id⟩ (enterStarting_keepsRanges .warm _)) _

theorem busCycle_keepsRanges (b : BusCycle) (s : State) : KeepsRanges s (busCycle b s) := by
  unfold busCycle
  split
  next => exact settleStep_keepsRanges (arrive_frame s b).keepsRanges _
  next => exact ⟨id, id⟩

theorem endCycle_keepsRanges (s : State) : KeepsRanges s (endCycle s) := by
  obtain h | h | ⟨-, h | h⟩ := endCycle_cases s <;> rw [h]
  · exact settleStep_keepsRanges (by exact ⟨id, id⟩) _
  all_goals exact ⟨id, id⟩

/-! ### Completions -/

/-- The adoption makes the staged layout the active one (R162). -/
theorem adopted_keepsRanges (s : State) (st : InstallStream) : KeepsRanges s (s.adopted st) := by
  refine ⟨fun ⟨he, hd, hr⟩ => ⟨(record_frame s _).eventsFit he, installAnswered_data _ _ hd, ?_⟩, fun h => ?_⟩
  · exact (Link.received_eq_of_frame (installAnswered_frame .ok s.link)).symm ▸ hr
  · obtain ⟨-, -, hs, hlog, hc⟩ := h
    exact ⟨hs, hlog, hs, hlog, hc⟩

theorem installFailed_keepsRanges (s : State) (st : InstallStream) : KeepsRanges s (s.installFailed st) := by
  refine ⟨fun ⟨he, hd, hr⟩ => ⟨?_, installAnswered_data _ _ hd, ?_⟩, id⟩
  · exact (record_frame _ _).eventsFit ((record_frame s _).eventsFit he)
  · exact (Link.received_eq_of_frame (installAnswered_frame .media s.link)).symm ▸ hr

theorem installTakes_keepsRanges (s : State) (data : Word) : KeepsRanges s (installTakes data s) := by
  obtain h | ⟨_, st', -, h, -⟩ | ⟨_, st', -, h, -⟩ | ⟨st, -, h⟩ := installTakes_cases s data <;> rw [h]
  · exact .refl s
  · exact ⟨id, id⟩
  · rw [adopt_eq]
    exact (adopted_keepsRanges s st').trans (endHold_frame _).keepsRanges
  · rw [installFault_eq]
    exact (installFailed_keepsRanges s st).trans (enterStarting_keepsRanges .warm _)

/-- In FROZEN the recovery may choose a copy, and its record alone shows it. -/
theorem deliverFrozen_keepsRanges (s : State) (hf : s.mode = .frozen) (c : Claimant) (data : Word) :
    KeepsRanges s (deliverFrozen c data s) := by
  obtain ⟨-, h⟩ | ⟨k, h⟩ | ⟨k, h⟩ | ⟨d, st, h⟩ | ⟨i, h⟩ | ⟨b, h⟩ | ⟨rfl, r, h⟩ := deliverFrozen_cases s c data hf
  · rw [h]
    exact (hostTakes_frame s data).keepsRanges
  case inr.inr.inr.inr.inr.inr =>
    have htaken : deliverFrozen .recovery data s = { recoveryTakes data s with events := s.events } := rfl
    refine ⟨by rw [h]; exact id, fun hl => ?_⟩
    rw [htaken]
    exact (recoveryTakes_recoveryFrame s data).layouts hl
  all_goals
    rw [h]
    exact ⟨id, id⟩

theorem deliver_keepsRanges (s : State) (c : Claimant) (data : Word) : KeepsRanges s (deliver c data s) := by
  cases c with
  | host => exact (hostTakes_frame s data).keepsRanges
  | copy => exact (copyTakes_frame s data).keepsRanges
  | commit => exact (commitTakes_frame s data).keepsRanges
  | restore d => exact (restoreTakes_frame s d data).keepsRanges
  | install => exact installTakes_keepsRanges s data
  | retire => exact (retireTakes_frame s data).keepsRanges
  | recovery => exact (recoveryTakes_recoveryFrame s data).keepsRanges

theorem handOver_keepsRanges (s : State) (a : Access) (data : Word) : KeepsRanges s (handOver a data s) := by
  unfold handOver
  split
  next => exact .refl s
  next =>
    split
    next hf => exact deliverFrozen_keepsRanges s hf _ _
    next => exact deliver_keepsRanges s _ _

theorem completeAccess_keepsRanges (f : Option Word) (a : Access) (s : State) : KeepsRanges s (completeAccess f a s) :=
  settleStep_keepsRanges (KeepsRanges.trans (s := s) (t := finishAccess f a s) ⟨id, id⟩ (handOver_keepsRanges _ _ _)) true

/-! ### Requests -/

/-- A request keeps the buffers; it keeps the layouts where the staged log length is one a layout can have. -/
theorem RequestEffect.ranges {s t : State} (h : RequestEffect s t) :
    (s.BuffersFit → t.BuffersFit)
      ∧ (t.staging.logLength = 0 ∨ t.staging.LogInRange → s.LayoutsInRange → t.LayoutsInRange) := by
  have keeps : KeepsRanges s t → (s.BuffersFit → t.BuffersFit)
      ∧ (t.staging.logLength = 0 ∨ t.staging.LogInRange → s.LayoutsInRange → t.LayoutsInRange) :=
    fun hk => ⟨hk.buffers, fun _ => hk.layouts⟩
  cases h with
  | nothing => exact keeps (.refl s)
  | posted tag code r data hd => exact keeps ⟨fun ⟨he, _, hr⟩ => ⟨he, hd, hr⟩, id⟩
  | staged tag code l hl =>
    refine ⟨fun ⟨he, _, hr⟩ => ⟨he, Nat.zero_le 24, hr⟩, fun hlog ⟨h1, h2, h3, _, h5⟩ => ?_⟩
    exact ⟨h1, h2, hl h1 h3, hlog, h5⟩
  | resumed => exact keeps ⟨fun ⟨he, _, hr⟩ => ⟨he, Nat.zero_le 24, hr⟩, id⟩
  | moded => exact keeps ⟨fun ⟨he, _, hr⟩ => ⟨he, Nat.zero_le 24, hr⟩, id⟩
  | taken tag r rest h =>
    refine keeps ⟨fun ⟨he, _, hr⟩ => ⟨?_, r.bytes_length, hr⟩, id⟩
    rw [h] at he
    exact (Nat.le_succ _).trans he
  | masked => exact keeps ⟨fun ⟨he, _, hr⟩ => ⟨he, by simp [post, bytes2], hr⟩, id⟩
  | installed =>
    exact keeps (settleStep_keepsRanges (by exact ⟨fun ⟨he, _, hr⟩ => ⟨he, Nat.zero_le 24, hr⟩, id⟩) _)
  | aborted tag d data h hd =>
    refine keeps (settleStep_keepsRanges (KeepsRanges.trans (s := s) (t := post tag 0x20 .ok data s) ?_
      (abortUpdate_frame _ _ _).keepsRanges) _)
    exact ⟨fun ⟨he, _, hr⟩ => ⟨he, hd, hr⟩, id⟩
  | restarted tag =>
    exact keeps (settleStep_keepsRanges (KeepsRanges.trans (s := s) (t := { s with link := { s.link with pendingOp := .restart tag } })
      ⟨id, id⟩ (enterStarting_keepsRanges .restart _)) _)

theorem CommandEffect.ranges {c : Instr} {s t : State} (h : CommandEffect c s t) :
    (s.BuffersFit → t.BuffersFit)
      ∧ (t.staging.logLength = 0 ∨ t.staging.LogInRange → s.LayoutsInRange → t.LayoutsInRange) := by
  have keeps : KeepsRanges s t → (s.BuffersFit → t.BuffersFit)
      ∧ (t.staging.logLength = 0 ∨ t.staging.LogInRange → s.LayoutsInRange → t.LayoutsInRange) :=
    fun hk => ⟨hk.buffers, fun _ => hk.layouts⟩
  have cleared : ∀ u : State, u.events = [] → u.link = .powerUp → u.layout = .cleared → u.staging = .cleared →
      u.recovery.chosen = none → KeepsRanges s u := by
    intro u he hk hl hs hc
    refine ⟨fun _ => ?_, fun h => LayoutsInRange.of_cleared h hl (.inr hs) hc⟩
    unfold State.BuffersFit
    rw [he, hk]
    exact ⟨Nat.zero_le 16, Nat.zero_le 24, Nat.zero_le 29⟩
  cases h with
  | same => exact keeps (.refl s)
  | poweredUp => exact keeps (cleared _ rfl rfl rfl rfl rfl)
  | supplyLost => exact keeps (cleared _ rfl rfl rfl rfl rfl)
  | ticked => exact keeps (settleStep_keepsRanges (tickBody_keepsRanges s) _)
  | resetFell straps => exact keeps ((showStraps_keepsRanges straps s).trans (resetFalls_keepsRanges _))
  | resetRose straps => exact keeps ((showStraps_keepsRanges straps s).trans (resetRises_keepsRanges _))
  | pfwFell straps => exact keeps ((showStraps_keepsRanges straps s).trans (pfwFalls_keepsRanges _))
  | pfwRose straps => exact keeps ((showStraps_keepsRanges straps s).trans (pfwRises_keepsRanges _))
  | cycled b => exact keeps (busCycle_keepsRanges b s)
  | cycleEnded => exact keeps (endCycle_keepsRanges s)
  | completed f a => exact keeps (completeAccess_keepsRanges f a s)
  | framed _ h =>
    obtain ⟨l, rfl, hr, -, hl⟩ := h
    refine keeps ⟨fun ⟨he, hd, hrec⟩ => ⟨he, hr ▸ hd, ?_⟩, id⟩
    obtain hl | hl := hl <;> [exact hl; exact hl ▸ hrec]
  | requested u _ h ht =>
    obtain ⟨l, rfl, hr, -, hl⟩ := h
    refine ⟨fun ⟨he, hd, hrec⟩ => ht.ranges.1 ⟨he, hr ▸ hd, ?_⟩, fun hlog hs => ht.ranges.2 hlog hs⟩
    obtain hl | hl := hl <;> [exact hl; exact hl ▸ hrec]

/-! ### The staged log length (R146) -/

/-- The staged log length stays, is taken from the active layout, is cleared, or is one that STAGE_LOG lets through. -/
def StagesLog (s t : State) : Prop :=
  t.staging.logLength = s.staging.logLength ∨ t.staging.logLength = s.layout.logLength ∨ t.staging.logLength = 0
    ∨ t.staging.LogInRange

theorem StagesLog.of_staging {s t : State} (h : t.staging = s.staging) : StagesLog s t := .inl (by rw [h])

theorem unlessBusy_stagesLog {tag code : Byte} {s t : State} (h : StagesLog s t) :
    StagesLog s (unlessBusy tag code s t) := by
  unfold unlessBusy
  split
  next => exact .of_staging rfl
  next => exact h

theorem unlessUnguarded_stagesLog {tag code : Byte} {s t : State} (h : StagesLog s t) :
    StagesLog s (unlessUnguarded tag code s t) := by
  refine unlessBusy_stagesLog ?_
  split
  next => exact .of_staging rfl
  next => exact h

theorem reqStageRegion_stagesLog (tag r : Byte) (base : BitVec 24) (flags size : Byte) (count : Word) (s : State) :
    StagesLog s (reqStageRegion tag r base flags size count s) := by
  refine unlessBusy_stagesLog ?_
  split
  next => exact .of_staging rfl
  next => split <;> exact .inl rfl

theorem reqStageDomain_stagesLog (tag d flags quota : Byte) (deadline : Word) (commit : BitVec 24) (s : State) :
    StagesLog s (reqStageDomain tag d flags quota deadline commit s) := by
  refine unlessBusy_stagesLog ?_
  split
  next => exact .of_staging rfl
  next => split <;> exact .inl rfl

theorem reqStageLog_stagesLog (tag : Byte) (len : BitVec 24) (verify : Byte) (s : State) :
    StagesLog s (reqStageLog tag len verify s) := by
  refine unlessBusy_stagesLog ?_
  split
  next h => exact .inr (.inr (.inr h))
  next => exact .of_staging rfl

theorem reqStageLoad_stagesLog (tag : Byte) (s : State) : StagesLog s (reqStageLoad tag s) :=
  unlessBusy_stagesLog (.inr (.inl rfl))

theorem settleStep_stagesLog {s u : State} (h : u.staging = s.staging) (b : Bool) : StagesLog s (settleStep b u) :=
  .of_staging ((settleStep_frame b u).staging.trans h)

theorem reqInstall_stagesLog (tag : Byte) (s : State) : StagesLog s (reqInstall tag s) := by
  refine unlessBusy_stagesLog ?_
  split
  next =>
    split
    next => exact .of_staging rfl
    next => exact settleStep_stagesLog (by rfl) _
  next => exact .of_staging rfl

theorem reqAbort_stagesLog (tag d : Byte) (s : State) : StagesLog s (reqAbort tag d s) := by
  refine unlessUnguarded_stagesLog ?_
  split
  next => exact .of_staging rfl
  next =>
    split
    next i _ _ => exact settleStep_stagesLog (by exact (abortUpdate_frame (post tag 0x20 .ok _ s) _ _).staging) _
    all_goals exact .of_staging rfl

theorem reqResume_stagesLog (tag d : Byte) (s : State) : StagesLog s (reqResume tag d s) := by
  refine unlessUnguarded_stagesLog ?_
  split
  next => exact .of_staging rfl
  next => split <;> exact .of_staging rfl

theorem reqSetBypass_stagesLog (tag : Byte) (s : State) : StagesLog s (reqSetBypass tag s) := by
  refine unlessUnguarded_stagesLog ?_
  split <;> [exact .of_staging rfl; split <;> exact .of_staging rfl]

theorem reqSetGuarding_stagesLog (tag : Byte) (s : State) : StagesLog s (reqSetGuarding tag s) := by
  refine unlessUnguarded_stagesLog ?_
  split <;> [exact .of_staging rfl; split <;> exact .of_staging rfl]

theorem reqSetMode_stagesLog (tag m : Byte) (s : State) : StagesLog s (reqSetMode tag m s) := by
  unfold reqSetMode
  split
  next => exact reqSetGuarding_stagesLog tag s
  next =>
    split
    next => exact reqSetBypass_stagesLog tag s
    next => exact unlessUnguarded_stagesLog (.of_staging rfl)

theorem reqTakeEvent_stagesLog (tag : Byte) (s : State) : StagesLog s (reqTakeEvent tag s) := by
  unfold reqTakeEvent
  split <;> exact .of_staging rfl

theorem reqSetEvents_stagesLog (tag : Byte) (mask : Word) (s : State) : StagesLog s (reqSetEvents tag mask s) := by
  refine unlessBusy_stagesLog ?_
  split <;> exact .of_staging rfl

theorem reqRestart_stagesLog (tag : Byte) (s : State) : StagesLog s (reqRestart tag s) :=
  unlessBusy_stagesLog (settleStep_stagesLog (by rfl) _)

theorem reqGetDomain_stagesLog (tag d p : Byte) (s : State) : StagesLog s (reqGetDomain tag d p s) := by
  unfold reqGetDomain
  split <;> [exact .of_staging rfl; split <;> exact .of_staging rfl]

theorem reqGetSlot_stagesLog (tag n : Byte) (s : State) : StagesLog s (reqGetSlot tag n s) := by
  unfold reqGetSlot
  split <;> exact .of_staging rfl

theorem reqGetRegion_stagesLog (tag r : Byte) (s : State) : StagesLog s (reqGetRegion tag r s) := by
  unfold reqGetRegion
  split <;> exact .of_staging rfl

theorem reqGetStagedRegion_stagesLog (tag i : Byte) (s : State) : StagesLog s (reqGetStagedRegion tag i s) := by
  unfold reqGetStagedRegion
  split <;> exact .of_staging rfl

theorem reqGetStagedDomain_stagesLog (tag i : Byte) (s : State) : StagesLog s (reqGetStagedDomain tag i s) := by
  unfold reqGetStagedDomain
  split <;> exact .of_staging rfl

theorem reqGetStagedLog_stagesLog (tag i : Byte) (s : State) : StagesLog s (reqGetStagedLog tag i s) := by
  unfold reqGetStagedLog
  split <;> exact .of_staging rfl

theorem reqGetStaged_stagesLog (tag k i : Byte) (s : State) : StagesLog s (reqGetStaged tag k i s) := by
  unfold reqGetStaged
  split
  next => exact reqGetStagedRegion_stagesLog tag i s
  next =>
    split
    next => exact reqGetStagedDomain_stagesLog tag i s
    next => split <;> [exact reqGetStagedLog_stagesLog tag i s; exact .of_staging rfl]

theorem execute_stagesLog (bs : List Byte) (s : State) : StagesLog s (execute bs s) := by
  unfold execute
  dsimp only
  split
  · exact .of_staging rfl
  · exact reqGetDomain_stagesLog _ _ _ s
  · exact reqGetSlot_stagesLog _ _ s
  · exact reqGetRegion_stagesLog _ _ s
  · exact reqGetStaged_stagesLog _ _ _ s
  · exact reqStageLoad_stagesLog _ s
  · exact reqStageRegion_stagesLog _ _ _ _ _ _ s
  · exact reqStageDomain_stagesLog _ _ _ _ _ _ s
  · exact reqStageLog_stagesLog _ _ _ s
  · exact reqInstall_stagesLog _ s
  · exact reqAbort_stagesLog _ _ s
  · exact reqResume_stagesLog _ _ s
  · exact reqSetMode_stagesLog _ _ s
  · exact reqTakeEvent_stagesLog _ s
  · exact reqSetEvents_stagesLog _ _ s
  · exact reqRestart_stagesLog _ s
  · exact .of_staging rfl

theorem judgeFrame_stagesLog (bs : List Byte) (extra : Nat) (s : State) : StagesLog s (judgeFrame bs extra s) := by
  unfold judgeFrame
  split
  next => exact .of_staging rfl
  next =>
    split
    next => exact .of_staging rfl
    next => split <;> [exact .of_staging rfl; exact execute_stagesLog _ s]

theorem selectRises_stagesLog (bytes : List Byte) {body : State → State} (hb : ∀ v, StagesLog v (body v)) {s u : State}
    (h : LinkOnly s u) : StagesLog s (selectRises bytes body u) := by
  obtain ⟨l, rfl, -⟩ := h
  unfold selectRises
  split
  next =>
    split
    next => exact .of_staging rfl
    next => split <;> [exact hb _; exact .of_staging rfl]
  next => exact .of_staging rfl

theorem carryRequest_stagesLog (bytes : List Byte) {body : State → State} (hb : ∀ v, StagesLog v (body v)) (s : State) :
    StagesLog s (carryRequest bytes body s) :=
  selectRises_stagesLog bytes hb (selectFalls_linkOnly s)

theorem resetFalls_stagesLog (s : State) : StagesLog s (resetFalls s) := by
  obtain ⟨-, h⟩ | ⟨-, -, h⟩ | ⟨-, -, h⟩ | ⟨-, -, -, h⟩ := resetFalls_cases s <;> rw [h]
  · exact .of_staging rfl
  · exact .of_staging rfl
  · exact .inr (.inr (.inl rfl))
  · exact .inr (.inr (.inl rfl))

theorem resetRises_stagesLog (s : State) : StagesLog s (resetRises s) := by
  obtain ⟨-, h⟩ | ⟨-, h⟩ := resetRises_cases s <;> rw [h]
  · exact settleStep_stagesLog (by rfl) _
  · exact .of_staging rfl

theorem pfwFalls_stagesLog (s : State) : StagesLog s (pfwFalls s) := by
  obtain ⟨-, h⟩ | ⟨-, -, h⟩ | ⟨-, -, h⟩ := pfwFalls_cases s <;> rw [h] <;> exact .of_staging rfl

theorem pfwRises_stagesLog (s : State) : StagesLog s (pfwRises s) := by
  obtain ⟨-, h⟩ | ⟨-, -, h⟩ | ⟨-, -, -, h⟩ | ⟨-, -, -, h⟩ := pfwRises_cases s <;> rw [h]
  · exact .of_staging rfl
  · exact .of_staging rfl
  · exact .inr (.inr (.inl (by rw [(settleStep_frame _ _).staging]; rfl)))
  · exact settleStep_stagesLog (by rfl) _

theorem busCycle_stagesLog (b : BusCycle) (s : State) : StagesLog s (busCycle b s) := by
  unfold busCycle
  split
  next => exact settleStep_stagesLog (arrive_frame s b).staging _
  next => exact .of_staging rfl

theorem endCycle_stagesLog (s : State) : StagesLog s (endCycle s) := by
  obtain h | h | ⟨-, h | h⟩ := endCycle_cases s <;> rw [h]
  · exact settleStep_stagesLog (by rfl) _
  all_goals exact .of_staging rfl

theorem tickStep_stagesLog (s : State) : StagesLog s (settleStep false (tickBody s)) :=
  settleStep_stagesLog (tickBody_frame s).staging _

theorem completeWhen_stagesLog (p : Access → Bool) (f : Option Word) (s : State) : StagesLog s (completeWhen p f s) := by
  unfold completeWhen
  split
  next a _ =>
    split
    next => exact settleStep_stagesLog (by exact (handOver_frame (finishAccess f a s) _ _).staging) _
    next => exact .of_staging rfl
  next => exact .of_staging rfl

theorem answer_stagesLog {f : State → State} {s t : State} (h : answer f s = .next t) (hf : StagesLog s (f s)) :
    StagesLog s t := by
  unfold answer at h
  cases h
  split
  next => exact hf
  next => exact .of_staging rfl

theorem exec_stagesLog (c : Instr) (s t : State) (h : exec c s = .next t) : StagesLog s t := by
  cases c with
  | powerUp => cases h; exact .inr (.inr (.inl rfl))
  | supplyLoss => exact answer_stagesLog h (.inr (.inr (.inl rfl)))
  | tick => exact answer_stagesLog (f := fun s => settleStep false (tickBody s)) h (tickStep_stagesLog s)
  | settleEnd => exact answer_stagesLog h (by split <;> [exact tickStep_stagesLog s; exact .of_staging rfl])
  | deadlineExpiry d => exact answer_stagesLog h (by split <;> [exact tickStep_stagesLog s; exact .of_staging rfl])
  | resetAssert straps => exact answer_stagesLog (f := fun s => resetFalls (showStraps straps s)) h (resetFalls_stagesLog (showStraps straps s))
  | resetRelease straps => exact answer_stagesLog (f := fun s => resetRises (showStraps straps s)) h (resetRises_stagesLog (showStraps straps s))
  | pfwAssert straps => exact answer_stagesLog (f := fun s => pfwFalls (showStraps straps s)) h (pfwFalls_stagesLog (showStraps straps s))
  | pfwRelease straps => exact answer_stagesLog (f := fun s => pfwRises (showStraps straps s)) h (pfwRises_stagesLog (showStraps straps s))
  | hostRead => exact answer_stagesLog h (busCycle_stagesLog _ s)
  | hostWrite => exact answer_stagesLog h (busCycle_stagesLog _ s)
  | hostCycleEnd => exact answer_stagesLog h (endCycle_stagesLog s)
  | frameBegin => exact answer_stagesLog h (.of_staging (by obtain ⟨l, h, -⟩ := selectFalls_linkOnly s; rw [h]))
  | frameEnd bytes extra =>
    exact answer_stagesLog h (selectRises_stagesLog bytes (judgeFrame_stagesLog bytes extra) ⟨s.link, rfl, rfl, rfl, .inr rfl⟩)
  | nop => exact answer_stagesLog h (carryRequest_stagesLog _ (fun _ => .of_staging rfl) s)
  | getStatus => exact answer_stagesLog h (carryRequest_stagesLog _ (fun u => .of_staging (t := reqGetStatus _ u) rfl) s)
  | getDomain => exact answer_stagesLog h (carryRequest_stagesLog _ (reqGetDomain_stagesLog _ _ _) s)
  | getSlot => exact answer_stagesLog h (carryRequest_stagesLog _ (reqGetSlot_stagesLog _ _) s)
  | getRegion => exact answer_stagesLog h (carryRequest_stagesLog _ (reqGetRegion_stagesLog _ _) s)
  | getStagedRegion => exact answer_stagesLog h (carryRequest_stagesLog _ (reqGetStagedRegion_stagesLog _ _) s)
  | getStagedDomain => exact answer_stagesLog h (carryRequest_stagesLog _ (reqGetStagedDomain_stagesLog _ _) s)
  | getStagedLog => exact answer_stagesLog h (carryRequest_stagesLog _ (reqGetStagedLog_stagesLog _ _) s)
  | stageLoad => exact answer_stagesLog h (carryRequest_stagesLog _ (reqStageLoad_stagesLog _) s)
  | stageRegion => exact answer_stagesLog h (carryRequest_stagesLog _ (reqStageRegion_stagesLog _ _ _ _ _ _) s)
  | stageDomain => exact answer_stagesLog h (carryRequest_stagesLog _ (reqStageDomain_stagesLog _ _ _ _ _ _) s)
  | stageLog => exact answer_stagesLog h (carryRequest_stagesLog _ (reqStageLog_stagesLog _ _ _) s)
  | install => exact answer_stagesLog h (carryRequest_stagesLog _ (reqInstall_stagesLog _) s)
  | abort => exact answer_stagesLog h (carryRequest_stagesLog _ (reqAbort_stagesLog _ _) s)
  | resume => exact answer_stagesLog h (carryRequest_stagesLog _ (reqResume_stagesLog _ _) s)
  | setModeBypass => exact answer_stagesLog h (carryRequest_stagesLog _ (reqSetBypass_stagesLog _) s)
  | setModeGuarding => exact answer_stagesLog h (carryRequest_stagesLog _ (reqSetGuarding_stagesLog _) s)
  | takeEvent => exact answer_stagesLog h (carryRequest_stagesLog _ (reqTakeEvent_stagesLog _) s)
  | setEvents => exact answer_stagesLog h (carryRequest_stagesLog _ (reqSetEvents_stagesLog _ _) s)
  | restart => exact answer_stagesLog h (carryRequest_stagesLog _ (reqRestart_stagesLog _) s)
  | _ => exact answer_stagesLog h (completeWhen_stagesLog _ _ s)

/-- Settles O12: every effect keeps the ranges, the staged log length being one that a STAGE request lets through. -/
theorem layoutsAndBuffersStayInRange : Obligations.LayoutsAndBuffersStayInRange := by
  intro s t h
  obtain rfl | ⟨c, rest, -, he⟩ := step_cases h
  · exact ⟨id, id⟩
  · obtain ⟨hbuffers, hlayouts⟩ := (exec_cases c _ t he).ranges
    refine ⟨hbuffers, fun hs => hlayouts ?_ hs⟩
    obtain ⟨-, hlog, -, hslog, -⟩ := hs
    obtain hl | hl | hl | hl := exec_stagesLog c _ t he
    · exact hslog.imp hl.trans fun h => by unfold Layout.LogInRange; rw [hl]; exact h
    · exact hlog.imp hl.trans fun h => by unfold Layout.LogInRange; rw [hl]; exact h
    · exact .inl hl
    · exact .inr hl

end Sys2Proof.Machine
end

section
/-! The committed epoch moves at the commit alone (R20): what the Update Controller and the streams leave of it. -/

namespace Sys2Proof.Machine

/-- Every domain's committed epoch stays. -/
def EpochsStay (s t : State) : Prop := ∀ d, (t.dom d).committed = (s.dom d).committed

theorem EpochsStay.refl (s : State) : EpochsStay s s := fun _ => rfl

theorem EpochsStay.trans {s t u : State} (h1 : EpochsStay s t) (h2 : EpochsStay t u) : EpochsStay s u :=
  fun d => (h2 d).trans (h1 d)

theorem EpochsStay.of_domains {s t : State} (h : t.domains = s.domains) : EpochsStay s t := fun d => by
  simp only [State.dom, h]

/-- A record with the same committed epoch is put in a domain's place. -/
theorem EpochsStay.setDom {s t : State} (h : EpochsStay s t) {d : Fin 4} {r : Runtime}
    (hr : r.committed = (t.dom d).committed) : EpochsStay s (t.setDom d r) := by
  intro e
  rw [State.dom_setDom]
  split
  next hde => subst hde; exact hr.trans (h d)
  next => exact h e

theorem EpochsStay.record {s t : State} (h : EpochsStay s t) (e : Event) : EpochsStay s (record e t) :=
  h.trans (.of_domains (record_domains e t))

@[simp] theorem moveSlots_domains (old new : SlotState) (l : List Nat) (s : State) :
    (moveSlots old new l s).domains = s.domains := by rw [moveSlots_only_pool]

theorem EpochsStay.moveSlots {s t : State} (h : EpochsStay s t) (old new : SlotState) (l : List Nat) :
    EpochsStay s (moveSlots old new l t) :=
  h.trans (.of_domains (moveSlots_domains old new l t))

theorem EpochsStay.startRollback {s t : State} (h : EpochsStay s t) (d : Fin 4) (c : Cause) :
    EpochsStay s (startRollback d c t) :=
  (h.moveSlots _ _ _).setDom (by simp only [State.dom, moveSlots_domains])

theorem EpochsStay.endRollback {s t : State} (h : EpochsStay s t) (d : Fin 4) : EpochsStay s (endRollback d t) := by
  unfold Machine.endRollback
  dsimp only
  split
  next => exact h
  next => exact EpochsStay.record (by exact h.setDom (by rfl)) _

theorem EpochsStay.beginRestore {s t : State} (h : EpochsStay s t) (d : Fin 4) : EpochsStay s (beginRestore d t) := by
  unfold Machine.beginRestore
  dsimp only
  split
  next => exact h
  next =>
    split
    next => exact h
    next =>
      split
      next => exact h.endRollback d
      next => split <;> [exact h; exact h.setDom rfl]

theorem EpochsStay.dropWrite {s t : State} (h : EpochsStay s t) (r : Reason) : EpochsStay s (dropWrite r t) :=
  h.trans (.of_domains (by rw [dropWrite_only]))

theorem EpochsStay.dropHeld {s t : State} (h : EpochsStay s t) (d : Fin 4) : EpochsStay s (dropHeld d t) := by
  unfold Machine.dropHeld
  split
  next =>
    split
    next => exact h
    next => split <;> [exact h; exact h.dropWrite _]
    next => exact h
    next => exact h
    all_goals exact h.dropWrite _
  next => exact h

theorem EpochsStay.abortUpdate {s t : State} (h : EpochsStay s t) (d : Fin 4) (c : Cause) :
    EpochsStay s (abortUpdate d c t) :=
  ((h.startRollback d c).dropHeld d).beginRestore d

theorem EpochsStay.strayDomain {s t : State} (h : EpochsStay s t) (d : Fin 4) : EpochsStay s (strayDomain d t) := by
  unfold Machine.strayDomain
  split
  next => exact (h.startRollback d _).beginRestore d
  next => exact h

theorem EpochsStay.blockWrite {s t : State} (h : EpochsStay s t) (r : Reason) (b : Bool) :
    EpochsStay s (blockWrite r b t) := by
  have hreported : EpochsStay s (reportWrite r (setDisp (.block r) t)) := EpochsStay.record (t := setDisp (.block r) t) h _
  unfold Machine.blockWrite
  cases b with
  | false => exact hreported
  | true =>
    have hstruck := (((hreported.strayDomain 0).strayDomain 1).strayDomain 2).strayDomain 3
    simp only [if_true]
    exact hstruck.trans (.of_domains (closePort_domains _))

theorem EpochsStay.seekSlot {s t : State} (h : EpochsStay s t) (hit : Hit) : EpochsStay s (seekSlot hit t) := by
  unfold Machine.seekSlot
  split
  next i rest _ =>
    have hopened : EpochsStay s (t.setDom hit.domain { t.dom hit.domain with
        state := .opened
        timer := if (t.dom hit.domain).state = .idle then (t.cfg hit.domain).deadline.toNat else (t.dom hit.domain).timer
        members := (t.dom hit.domain).members ++ [i] }) := h.setDom (by rfl)
    exact hopened.trans (.of_domains (by rfl))
  next => split <;> [exact h; exact h.abortUpdate _ _]

theorem EpochsStay.joinRecord {s t : State} (h : EpochsStay s t) (hit : Hit) : EpochsStay s (joinRecord hit t) := by
  unfold Machine.joinRecord
  split <;> [exact h.abortUpdate _ _; exact h.seekSlot hit]

theorem EpochsStay.evaluateGuard {s t : State} (h : EpochsStay s t) (hit : Hit) : EpochsStay s (evaluateGuard hit t) := by
  unfold Machine.evaluateGuard
  dsimp only
  split
  next => exact EpochsStay.setDom (t := setBoost false t) h rfl
  next => exact EpochsStay.abortUpdate (t := setStage .none (setBoost false t)) h _ _

theorem EpochsStay.commitAttempt {s t : State} (h : EpochsStay s t) (hit : Hit) : EpochsStay s (commitAttempt hit t) := by
  unfold Machine.commitAttempt
  split <;> [exact h.evaluateGuard hit; exact h]

theorem EpochsStay.decideJournal {s t : State} (h : EpochsStay s t) (hit : Hit) : EpochsStay s (decideJournal hit t) := by
  unfold Machine.decideJournal
  split
  next => exact h.joinRecord hit
  next =>
    split
    next => split <;> [exact h.commitAttempt hit; exact h]
    next => exact h.joinRecord hit
  next => exact h.dropWrite _
  next => exact h.dropWrite _
  next => exact h.dropWrite _
  next => exact h
  next => exact h

theorem EpochsStay.decideSlotAgain {s t : State} (h : EpochsStay s t) : EpochsStay s (decideSlotAgain t) := by
  unfold Machine.decideSlotAgain
  split <;> [split <;> [exact h.seekSlot _; exact h]; exact h]

theorem EpochsStay.decideBacklogAgain {s t : State} (h : EpochsStay s t) : EpochsStay s (decideBacklogAgain t) := by
  unfold Machine.decideBacklogAgain
  split
  next =>
    split
    next => split <;> [exact h.evaluateGuard _; exact h]
    next => exact h
  next => exact h

theorem EpochsStay.takeWrite {s t : State} (h : EpochsStay s t) (c : Classification) : EpochsStay s (takeWrite c t) := by
  unfold Machine.takeWrite
  split
  next =>
    split
    next => exact h
    next => exact h.blockWrite _ _
    next hit =>
      split
      next => exact h.blockWrite _ _
      next =>
        split
        next => exact h.blockWrite _ _
        next =>
          exact EpochsStay.decideJournal
            (t := { t with port := { t.port with state := .deciding, disp := some .journal, stage := .none } }) h hit
  next => split <;> [exact h.blockWrite _ _; exact h]
  next => exact h

theorem EpochsStay.takeAccess {s t : State} (h : EpochsStay s t) : EpochsStay s (takeAccess t) := by
  unfold Machine.takeAccess
  dsimp only
  split
  next =>
    split
    next => exact h
    next =>
      exact EpochsStay.takeWrite
        (t := { t with port := { t.port with cls := some (classify t t.port.cycle.addr) } }) h _
  next => exact h

theorem EpochsStay.arrive {s t : State} (h : EpochsStay s t) (c : BusCycle) : EpochsStay s (arrive c t) := by
  unfold Machine.arrive
  dsimp only
  split
  next => exact h
  next => exact EpochsStay.takeAccess (t := { t with port :=
      { state := .held, cycle := c, cls := none, disp := none, stage := .none, early := false, waiting := none } }) h

theorem EpochsStay.arbitrate {s t : State} (h : EpochsStay s t) (b : Bool) : EpochsStay s (arbitrate b t) :=
  h.trans (.of_domains (by rw [(arbitrate_granted b t).only]))

theorem EpochsStay.settleStep {s t : State} (h : EpochsStay s t) (b : Bool) : EpochsStay s (settleStep b t) := by
  have hload : EpochsStay s (loadBegin t) := h.trans (.of_domains (by unfold loadBegin; split <;> rfl))
  unfold Machine.settleStep
  dsimp only
  split
  next => exact ((hload.arbitrate b).arrive _).arbitrate _
  next => exact hload.arbitrate b

theorem EpochsStay.tickBody {s t : State} (h : EpochsStay s t) : EpochsStay s (tickBody t) := by
  have tick : ∀ {u : State} (d : Fin 4), EpochsStay s u → EpochsStay s (tickDomain d u) := by
    intro u d hu
    unfold tickDomain
    dsimp only
    split
    next => exact (hu.setDom (by rfl)).abortUpdate _ _
    next => exact hu.setDom (by rfl)
  obtain ⟨r, -, he, -⟩ | ⟨-, he⟩ | he := tickBody_cases t <;> rw [he]
  · exact h
  · exact tick 3 (tick 2 (tick 1 (tick 0 h)))
  · exact h

/-! ### Streams -/

theorem EpochsStay.copyTakes {s t : State} (h : EpochsStay s t) (data : Word) : EpochsStay s (copyTakes data t) := by
  unfold Machine.copyTakes
  split
  next => exact h
  next c _ =>
    split
    next => exact h
    next =>
      unfold copyDone
      dsimp only
      split
      next =>
        split
        next => split <;> [exact EpochsStay.commitAttempt (by exact h) _; exact h]
        next => exact h
      next => exact EpochsStay.beginRestore (EpochsStay.dropHeld (by exact h) _) _
      next => exact h
    next =>
      unfold copyNotBlank
      dsimp only
      split
      next => exact EpochsStay.blockWrite (EpochsStay.setDom (by exact h) (by rfl)) _ _
      next =>
        refine EpochsStay.beginRestore (EpochsStay.dropHeld ?_ _) _
        exact EpochsStay.trans (EpochsStay.setDom (by exact h) (by rfl)) (.of_domains rfl)
      next => exact h
    next a _ =>
      have hbad : EpochsStay s (Machine.record (.mediaFault .copy (some c.slot) a)
          ((State.unindex { t with copy := none } c.slot).setSlot c.slot .badEntry)) :=
        EpochsStay.record (by exact h) _
      unfold copyFault
      dsimp only
      split
      next =>
        refine EpochsStay.abortUpdate ?_ _ _
        exact EpochsStay.trans (hbad.setDom (by simp [State.dom])) (.of_domains rfl)
      next =>
        refine EpochsStay.beginRestore (EpochsStay.dropHeld ?_ _) _
        exact EpochsStay.trans (hbad.setDom (by simp [State.dom])) (.of_domains rfl)
      next => exact hbad

theorem EpochsStay.retireTakes {s t : State} (h : EpochsStay s t) (data : Word) : EpochsStay s (retireTakes data t) := by
  have leaves : ∀ i e, EpochsStay s (retireLeaves i e t) := fun i e =>
    EpochsStay.setDom (t := ({ t with retireQueue := t.retireQueue.tail, retireBack := false } : State).setSlot i e) h rfl
  have done : ∀ i, EpochsStay s (retireDone i t) := fun i =>
    (EpochsStay.decideSlotAgain ((leaves i .freeEntry).trans (.of_domains (by rfl)))).decideBacklogAgain
  have fault : ∀ i, EpochsStay s (retireFault i t) := fun i => ((leaves i .badEntry).record _).decideSlotAgain.decideBacklogAgain
  unfold Machine.retireTakes
  split
  next => exact h
  next =>
    split
    next => split <;> [exact done _; exact fault _]
    next => split <;> [exact h; exact done _]

theorem EpochsStay.restoreTakes {s t : State} (h : EpochsStay s t) (d : Fin 4) (data : Word) :
    EpochsStay s (restoreTakes d data t) := by
  unfold Machine.restoreTakes
  split
  next => exact h
  next st _ =>
    split
    next => exact h
    next i _ =>
      split
      next => exact h.setDom rfl
      next =>
        refine EpochsStay.beginRestore (EpochsStay.decideSlotAgain ?_) d
        exact EpochsStay.setDom (t := { (t.unindex i).setSlot i .freeEntry with freeQueue := _ }) h rfl
      next =>
        refine EpochsStay.beginRestore (EpochsStay.decideSlotAgain (EpochsStay.record ?_ _)) d
        exact EpochsStay.setDom (t := (t.unindex i).setSlot i .badEntry) h rfl
      next =>
        refine EpochsStay.decideSlotAgain (EpochsStay.record (EpochsStay.record (EpochsStay.record ?_ _) _) _)
        exact (h.moveSlots _ _ _).setDom (by simp only [State.dom, moveSlots_domains])

theorem EpochsStay.hostTakes {s t : State} (h : EpochsStay s t) (data : Word) : EpochsStay s (hostTakes data t) := by
  refine h.trans (.of_domains ?_)
  unfold Machine.hostTakes
  repeat' split
  all_goals rfl

theorem EpochsStay.deliverFrozen {s t : State} (h : EpochsStay s t) (hf : t.mode = .frozen) (c : Claimant) (data : Word) :
    EpochsStay s (deliverFrozen c data t) := by
  obtain ⟨-, he⟩ | ⟨k, he⟩ | ⟨k, he⟩ | ⟨d, st, he⟩ | ⟨i, he⟩ | ⟨b, he⟩ | ⟨-, r, he⟩ := deliverFrozen_cases t c data hf <;>
    rw [he]
  · exact h.hostTakes data
  · exact h
  · exact h
  · exact h.setDom rfl
  all_goals exact h

/-- The commit stream's word: the commit advances its domain's epoch by one, everything else leaves the epochs (R20, R30). -/
theorem commitTakes_epochs (s : State) (data : Word) (d : Fin 4) :
    ((commitTakes data s).dom d).committed = (s.dom d).committed
      ∨ ∃ back, s.commit = some { domain := d, back := back }
        ∧ ((commitTakes data s).dom d).committed = (s.dom d).committed + 1 := by
  have done : ∀ c : CommitStream, s.commit = some c →
      ((commitDone c.domain s).dom d).committed = (s.dom d).committed
        ∨ ∃ back, s.commit = some { domain := d, back := back }
          ∧ ((commitDone c.domain s).dom d).committed = (s.dom d).committed + 1 := by
    intro c hc
    by_cases hd : c.domain = d
    · subst hd
      exact .inr ⟨c.back, hc, by simp [commitDone, closePort, setDisp, State.dom, Runtime.openEpoch]⟩
    · refine .inl ?_
      unfold commitDone
      dsimp only
      have hne : ¬ (c.domain : Nat) = d := fun h => hd (Fin.ext h)
      simp [closePort, setDisp, State.dom, hne]
  have fault : ∀ d', EpochsStay s (commitFault d' s) := by
    intro d'
    have hmoved : EpochsStay s { moveSlots .active .stranded (s.dom d').members s with commit := none } :=
      (EpochsStay.refl s).moveSlots _ _ _
    have hfailed := hmoved.setDom (d := d') (r := { s.dom d' with state := .failed, members := [] })
      (by simp only [State.dom, moveSlots_domains])
    exact ((hfailed.record _).record _).trans (.of_domains (by rfl))
  unfold commitTakes
  split
  next => exact .inl rfl
  next c hc =>
    split
    next => split <;> [exact done c hc; exact .inl (fault _ d)]
    next => split <;> [exact .inl rfl; exact done c hc]

/-! ### Commands -/

theorem RequestEffect.epochs {s t : State} (h : RequestEffect s t) : EpochsStay s t ∨ t.mode = .starting := by
  cases h with
  | resumed tag d => exact .inl (EpochsStay.setDom (.refl s) rfl)
  | installed => exact .inl (EpochsStay.settleStep (by exact .refl s) _)
  | aborted tag d data =>
    exact .inl (EpochsStay.settleStep (EpochsStay.abortUpdate (t := post tag 0x20 .ok data s) (.refl s) _ _) _)
  | restarted => exact .inr (by rw [(settleStep_frame _ _).mode]; rfl)
  | _ => exact .inl (.refl s)

theorem resetFalls_epochs (s : State) : EpochsStay s (resetFalls s) ∨ (resetFalls s).mode = .starting := by
  obtain ⟨-, h⟩ | ⟨-, -, h⟩ | ⟨-, -, h⟩ | ⟨-, -, -, h⟩ := resetFalls_cases s <;> rw [h]
  · exact .inl (.refl s)
  · exact .inl (.refl s)
  · exact .inl (.refl s)
  · exact .inr rfl

theorem resetRises_epochs (s : State) : EpochsStay s (resetRises s) := by
  obtain ⟨-, h⟩ | ⟨-, h⟩ := resetRises_cases s <;> rw [h]
  · exact EpochsStay.settleStep (by exact .refl s) _
  · exact .refl s

theorem pfwFalls_epochs (s : State) : EpochsStay s (pfwFalls s) := by
  obtain ⟨-, h⟩ | ⟨-, -, h⟩ | ⟨-, -, h⟩ := pfwFalls_cases s <;> rw [h]
  · exact .refl s
  · exact .refl s
  · intro d
    simp [enterFrozen, State.dom]

theorem pfwRises_epochs (s : State) : EpochsStay s (pfwRises s) ∨ (pfwRises s).mode = .starting := by
  obtain ⟨-, h⟩ | ⟨-, -, h⟩ | ⟨-, -, -, h⟩ | ⟨-, -, -, h⟩ := pfwRises_cases s <;> rw [h]
  · exact .inl (.refl s)
  · exact .inl (.refl s)
  · exact .inr (by rw [(settleStep_frame _ _).mode]; rfl)
  · exact .inr (by rw [(settleStep_frame _ _).mode]; rfl)

theorem busCycle_epochs (b : BusCycle) (s : State) : EpochsStay s (busCycle b s) := by
  unfold busCycle
  split
  next => exact ((EpochsStay.refl s).arrive b).settleStep _
  next => exact .refl s

theorem endCycle_epochs (s : State) : EpochsStay s (endCycle s) := by
  obtain h | h | ⟨-, h | h⟩ := endCycle_cases s <;> rw [h]
  · exact EpochsStay.settleStep (by exact .refl s) _
  all_goals exact .refl s

/-- A finished access of a part that is not STARTING or INSTALLING moves no epoch but the commit stream's own. -/
theorem handOver_epochs (s u : State) (hu : EpochsStay s u) (hcommit : u.commit = s.commit) (a : Access) (data : Word)
    (hm : a.claimant = .recovery ∨ a.claimant = .install → a.orphan = false → u.mode = .frozen) (d : Fin 4) :
    ((handOver a data u).dom d).committed = (s.dom d).committed
      ∨ (((handOver a data u).dom d).committed = (s.dom d).committed + 1 ∧ a.claimant = .commit ∧ a.orphan = false
        ∧ ∃ back, s.commit = some { domain := d, back := back }) := by
  unfold handOver
  split
  next => exact .inl (hu d)
  next ho =>
    have ho' : a.orphan = false := by simpa using ho
    split
    next hf => exact .inl (hu.deliverFrozen hf _ _ d)
    next hf =>
      cases hc : a.claimant with
      | host => exact .inl (hu.hostTakes data d)
      | copy => exact .inl (hu.copyTakes data d)
      | commit =>
        obtain h | ⟨back, hb, h⟩ := commitTakes_epochs u data d
        · exact .inl (h.trans (hu d))
        · exact .inr ⟨h.trans (by rw [hu d]), rfl, ho', back, hcommit ▸ hb⟩
      | restore e => exact .inl (hu.restoreTakes e data d)
      | install => exact absurd (hm (.inr hc) ho') hf
      | retire => exact .inl (hu.retireTakes data d)
      | recovery => exact absurd (hm (.inl hc) ho') hf

/-- Settles O14: every effect but the commit stream's completion keeps the epochs, or enters STARTING. -/
theorem committedEpochMovesOnlyAtTheCommit : Obligations.CommittedEpochMovesOnlyAtTheCommit := by
  intro c s t d hfit hstarting hinstalling h ht
  have stay : EpochsStay s t ∨ t.mode = .starting → (t.dom d).committed = (s.dom d).committed :=
    fun h => (h.resolve_right ht) d
  cases exec_cases c s t h with
  | same => exact .inl rfl
  | poweredUp => exact absurd rfl ht
  | supplyLost => exact absurd rfl ht
  | ticked => exact .inl (stay (.inl (EpochsStay.settleStep (EpochsStay.tickBody (.refl s)) _)))
  | resetFell straps => exact .inl (stay (resetFalls_epochs (showStraps straps s)))
  | resetRose straps => exact .inl (stay (.inl (resetRises_epochs (showStraps straps s))))
  | pfwFell straps => exact .inl (stay (.inl (pfwFalls_epochs (showStraps straps s))))
  | pfwRose straps => exact .inl (stay (pfwRises_epochs (showStraps straps s)))
  | cycled b => exact .inl (stay (.inl (busCycle_epochs b s)))
  | cycleEnded => exact .inl (stay (.inl (endCycle_epochs s)))
  | completed f a ha hc =>
    have hm : a.claimant = .recovery ∨ a.claimant = .install → a.orphan = false → (finishAccess f a s).mode = .frozen := by
      intro hcl ho
      obtain ⟨hr, hi⟩ := hfit.1 a ha ho
      obtain hcl | hcl := hcl
      · exact (hr hcl).resolve_left hstarting
      · exact (hi hcl).resolve_left hinstalling
    have hsettled := EpochsStay.settleStep (.refl _) true (t := handOver a (accessData f s.memory a) (finishAccess f a s)) d
    obtain hd | ⟨hd, hcl, ho, back, hb⟩ :=
      handOver_epochs s (finishAccess f a s) (.refl s) rfl a (accessData f s.memory a) hm d
    · exact .inl (hsettled.trans hd)
    · exact .inr ⟨hsettled.trans hd, by rw [hc]; rfl, a, back, ha, hcl, ho, hb⟩
  | framed _ h => obtain ⟨l, rfl, -⟩ := h; exact .inl rfl
  | requested u _ h he =>
    obtain ⟨l, rfl, -⟩ := h
    exact .inl (stay (he.epochs.imp_left fun h => EpochsStay.trans (.refl s) h))

end Sys2Proof.Machine
end

section
/-! Power-up and supply: the values of the reset state, and that a state without working state fits together (R105, R116, R118). -/

namespace Sys2Proof.Machine

/-- The power-up and STARTING values: no pool, no queue, no index, every domain's record discarded. -/
structure State.Discarded (s : State) : Prop where
  pool : s.pool = []
  free : s.freeQueue = []
  retire : s.retireQueue = []
  index : s.slotIndex = []
  domain : ∀ d, s.dom d = .discarded

theorem State.Discarded.no_slot {s : State} (h : s.Discarded) {i : Nat} (hi : i < s.pool.length) : False := by
  rw [h.pool] at hi
  exact Nat.not_lt_zero i hi

theorem State.Discarded.collectionsAgree {s : State} (h : s.Discarded) : s.CollectionsAgree where
  free := by
    rw [h.free]
    exact ⟨.nil, fun _ hi => (List.not_mem_nil hi).elim, fun _ hi => (h.no_slot hi).elim⟩
  retire := by
    rw [h.retire]
    exact ⟨.nil, fun _ hi => (List.not_mem_nil hi).elim, fun _ hi => (h.no_slot hi).elim⟩
  backlog d := by
    rw [h.pool, h.domain d]
    rfl
  index := by
    rw [h.index]
    exact ⟨.nil, .nil, fun _ he => (List.not_mem_nil he).elim, fun _ hi => (h.no_slot hi).elim⟩
  members d := by
    rw [h.domain d]
    exact ⟨.nil, Nat.zero_le _⟩

theorem State.Discarded.workFits {s : State} (h : s.Discarded) (hcopy : s.copy = none) (hcommit : s.commit = none)
    (hjournal : s.journalHit = none) (hmode : s.mode = .starting) (hrec : s.RecoveryFits) : s.WorkFits where
  active i hi := (h.no_slot hi).elim
  copying i hi := (h.no_slot hi).elim
  restoring i hi := (h.no_slot hi).elim
  stranded i hi := (h.no_slot hi).elim
  owned i hi := (h.no_slot hi).elim
  members d := by
    rw [h.domain d]
    exact ⟨fun _ hi => (List.not_mem_nil hi).elim, fun _ _ => rfl⟩
  lists d := by
    rw [h.domain d]
    exact ⟨.nil, fun _ hi => (List.not_mem_nil hi).elim, fun _ => rfl⟩
  streams d := by
    rw [h.domain d]
    exact ⟨by decide, fun st i hst => by cases hst⟩
  committing d hd := by
    rw [h.domain d] at hd
    cases hd
  copy c hc := by
    rw [hcopy] at hc
    cases hc
  commit c hc := by
    rw [hcommit] at hc
    cases hc
  held hit hh := by
    rw [hjournal] at hh
    cases hh
  frozen hm := by
    rw [hmode] at hm
    cases hm
  quiet hm := by
    rw [hmode] at hm
    cases hm
  starting _ := ⟨h.pool, hcommit, hjournal, h.domain, hrec⟩

/-- A recovery record just cleared fits (R118). -/
theorem State.RecoveryFits.of_entered {s : State} {k : StartKind} {p : Phase} {v : Vector Bool 4}
    (h : s.recovery = .entered k p v) : s.RecoveryFits where
  records := by rw [h]; exact .nil
  slots := by rw [h]; exact .nil
  listed it hit := by rw [h] at hit; exact (List.not_mem_nil hit).elim
  stranded i _ it hit := by rw [h] at hit; exact (List.not_mem_nil hit).elim
  phase := by rw [h]; exact ⟨rfl, rfl⟩

theorem State.dom_replicate_discarded {s : State} (h : s.domains = Vector.replicate 4 .discarded) (d : Fin 4) :
    s.dom d = .discarded := by
  simp [State.dom, h]

theorem reset_discarded : State.reset.Discarded := ⟨rfl, rfl, rfl, rfl, State.dom_replicate_discarded rfl⟩

/-- Settles O3: every field is read off the reset state, the tables and domains entry by entry. -/
theorem resetIsThePowerUpState : Obligations.ResetIsThePowerUpState := by
  have hdom : ∀ d, (State.reset.dom d).state = .disabled ∧ (State.reset.dom d).committed = 0
      ∧ (State.reset.dom d).members = [] ∧ (State.reset.dom d).restoreList = [] ∧ (State.reset.dom d).backlog = 0
      ∧ (State.reset.dom d).timer = 0 ∧ (State.reset.dom d).stream = none := by
    intro d
    rw [reset_discarded.domain d]
    exact ⟨rfl, rfl, rfl, rfl, rfl, rfl, rfl⟩
  have hmask : ∀ k : Fin 9, State.reset.mask[k] = true := by decide
  have hregions : ∀ r : Fin 16, State.reset.staging.regions[r] =
      { active := false, base := 0, size := 1, count := 1, kind := .journal, domain := 0 } := by decide
  have hdomains : ∀ d : Fin 4, State.reset.staging.domains[d] =
      { enabled := false, commitAddr := 0, guardMode := .any, deadline := 0, quota := 1, fence := false, strict := false } := by
    decide
  exact ⟨rfl, rfl, rfl, rfl, rfl, rfl, rfl, rfl, rfl, hdom, rfl, rfl, rfl, rfl, rfl, rfl, rfl, rfl, rfl, hmask, rfl, rfl, rfl,
    rfl, rfl, hregions, hdomains, rfl, rfl⟩

/-- Settles O4: the memory is empty, the port stopped, no stream stands, and the reset state holds no working state. -/
theorem invariantsHoldAtReset : Obligations.InvariantsHoldAtReset := by
  refine ⟨rfl, ?_, ⟨?_, ?_, ?_⟩, ?_, ?_, ?_, reset_discarded.collectionsAgree, ?_⟩
  · intro _ hs; cases hs
  · intro a ha; cases ha
  · intro st hst; cases hst
  · intro hm; cases hm
  · intro _; rfl
  · exact ⟨Layout.cleared_inRange, .inl rfl, Layout.cleared_inRange, .inl rfl, fun c hc => by cases hc⟩
  · exact ⟨Nat.zero_le 16, Nat.zero_le 24, Nat.zero_le 29⟩
  · exact reset_discarded.workFits rfl rfl rfl rfl (.of_entered rfl)

/-- Settles O35: both commands rebuild the reset state around what stays. -/
theorem supplyLeavesOnlyTheMemory : Obligations.SupplyLeavesOnlyTheMemory := by
  intro s straps pfw reset
  refine ⟨rfl, fun hp => ?_⟩
  have hanswer : exec .supplyLoss s = .next (if s.powered then supplyLost s else s) := rfl
  rw [hanswer, if_pos hp]
  rfl

end Sys2Proof.Machine
end

section
/-! The requests as their bytes carry them (R136, R137, R182), and what GET_STATUS, GET_DOMAIN, GET_SLOT, GET_REGION and
GET_STAGED return. -/

namespace Sys2Proof.Machine

/-! ### Bytes, most significant first (R182) -/

theorem append_bytes_word (w : Word) : w.extractLsb' 8 8 ++ w.extractLsb' 0 8 = w := by
  ext i hi
  simp only [BitVec.getElem_append, BitVec.getElem_extractLsb']
  split
  next => simp only [Nat.zero_add, BitVec.getLsbD_eq_getElem hi]
  next h => rw [show 8 + (i - 8) = i by omega, BitVec.getLsbD_eq_getElem hi]

theorem append_bytes_long (x : BitVec 24) : x.extractLsb' 16 8 ++ x.extractLsb' 8 8 ++ x.extractLsb' 0 8 = x := by
  ext i hi
  simp only [BitVec.getElem_append, BitVec.getElem_extractLsb']
  split
  next => simp only [Nat.zero_add, BitVec.getLsbD_eq_getElem hi]
  next =>
    split
    next => rw [show 8 + (i - 8) = i by omega, BitVec.getLsbD_eq_getElem hi]
    next => rw [show 16 + (i - 8 - 8) = i by omega, BitVec.getLsbD_eq_getElem hi]

theorem byte1_high (w : Word) : byte1 (w.toNat / 256) = w.extractLsb' 8 8 := by
  apply BitVec.eq_of_toNat_eq
  simp [byte1, BitVec.extractLsb'_toNat, Nat.shiftRight_eq_div_pow]

theorem byte1_low (w : Word) : byte1 w.toNat = w.extractLsb' 0 8 := by
  apply BitVec.eq_of_toNat_eq
  simp [byte1, BitVec.extractLsb'_toNat]

theorem bytes2_word (w : Word) : bytes2 w.toNat = [w.extractLsb' 8 8, w.extractLsb' 0 8] := by
  rw [bytes2, byte1_high, byte1_low]

theorem byte1_bit (b : Bool) : byte1 (bit b) = if b then 1 else 0 := by cases b <;> rfl

theorem bit_mul (b : Bool) (n : Nat) : bit b * n = if b then n else 0 := by
  cases b <;> simp [bit]

theorem domainOf_eq {b : Byte} {d : Fin 4} (h : b.toNat = d.val) : domainOf b = some d := by
  unfold domainOf
  rw [dif_pos (h ▸ d.isLt)]
  exact congrArg some (Fin.ext h)

theorem domainOf_none {b : Byte} (h : 3 < b.toNat) : domainOf b = none := dif_neg (by omega)

theorem regionOf_eq {b : Byte} {r : Fin 16} (h : b.toNat = r.val) : regionOf b = some r := by
  unfold regionOf
  rw [dif_pos (h ▸ r.isLt)]
  exact congrArg some (Fin.ext h)

theorem regionOf_none {b : Byte} (h : 15 < b.toNat) : regionOf b = none := dif_neg (by omega)

/-! ### A request command is the execution of its bytes -/

/-- The bytes of STAGE_REGION spell its parameters (R182). -/
theorem execute_stageRegion (tag r : Byte) (base : BitVec 24) (flags size : Byte) (count : Word) (u : State) :
    execute [0x11, tag, r, base.extractLsb' 16 8, base.extractLsb' 8 8, base.extractLsb' 0 8, flags, size,
      count.extractLsb' 8 8, count.extractLsb' 0 8] u = reqStageRegion tag r base flags size count u := by
  change reqStageRegion tag r (base.extractLsb' 16 8 ++ base.extractLsb' 8 8 ++ base.extractLsb' 0 8) flags size
      (count.extractLsb' 8 8 ++ count.extractLsb' 0 8) u = _
  rw [append_bytes_long, append_bytes_word]

/-- The bytes of STAGE_DOMAIN spell its parameters (R182). -/
theorem execute_stageDomain (tag d flags quota : Byte) (deadline : Word) (commit : BitVec 24) (u : State) :
    execute [0x12, tag, d, flags, quota, deadline.extractLsb' 8 8, deadline.extractLsb' 0 8, commit.extractLsb' 16 8,
      commit.extractLsb' 8 8, commit.extractLsb' 0 8] u = reqStageDomain tag d flags quota deadline commit u := by
  change reqStageDomain tag d flags quota (deadline.extractLsb' 8 8 ++ deadline.extractLsb' 0 8)
      (commit.extractLsb' 16 8 ++ commit.extractLsb' 8 8 ++ commit.extractLsb' 0 8) u = _
  rw [append_bytes_long, append_bytes_word]

/-- The bytes of STAGE_LOG spell its parameters (R182). -/
theorem execute_stageLog (tag : Byte) (len : BitVec 24) (verify : Byte) (u : State) :
    execute [0x13, tag, len.extractLsb' 16 8, len.extractLsb' 8 8, len.extractLsb' 0 8, verify] u =
      reqStageLog tag len verify u := by
  change reqStageLog tag (len.extractLsb' 16 8 ++ len.extractLsb' 8 8 ++ len.extractLsb' 0 8) verify u = _
  rw [append_bytes_long]

/-- The bytes of SET_EVENTS spell its mask (R182). -/
theorem execute_setEvents (tag : Byte) (mask : Word) (u : State) :
    execute [0x31, tag, mask.extractLsb' 8 8, mask.extractLsb' 0 8] u = reqSetEvents tag mask u := by
  change reqSetEvents tag (mask.extractLsb' 8 8 ++ mask.extractLsb' 0 8) u = _
  rw [append_bytes_word]

/-- What the bytes of a request are to its command: a frame of the code's length, which carries the same request with any
bytes clocked in beyond it (R136, R137). -/
structure SpellsRequest (c : Instr) (bytes : List Byte) : Prop where
  length : requestLength (bytes.getD 0 0) = some bytes.length
  short : bytes.length ≤ 10
  padded : ∀ pad s, execute (bytes ++ pad) s = execute bytes s
  executes : ∀ s, exec c s = answer (carryRequest bytes (execute bytes)) s

theorem requestBytes_spells {c : Instr} {bytes : List Byte} (h : requestBytes c = some bytes) : SpellsRequest c bytes := by
  cases c with
  | stageRegion tag r base flags size count =>
    cases h
    refine ⟨rfl, Nat.le_of_ble_eq_true rfl, fun _ _ => rfl, fun s => ?_⟩
    exact congrArg (fun f => answer (carryRequest _ f) s) (funext fun u => (execute_stageRegion tag r base flags size count u).symm)
  | stageDomain tag d flags quota deadline commit =>
    cases h
    refine ⟨rfl, Nat.le_of_ble_eq_true rfl, fun _ _ => rfl, fun s => ?_⟩
    exact congrArg (fun f => answer (carryRequest _ f) s) (funext fun u => (execute_stageDomain tag d flags quota deadline commit u).symm)
  | stageLog tag len verify =>
    cases h
    refine ⟨rfl, Nat.le_of_ble_eq_true rfl, fun _ _ => rfl, fun s => ?_⟩
    exact congrArg (fun f => answer (carryRequest _ f) s) (funext fun u => (execute_stageLog tag len verify u).symm)
  | setEvents tag mask =>
    cases h
    refine ⟨rfl, Nat.le_of_ble_eq_true rfl, fun _ _ => rfl, fun s => ?_⟩
    exact congrArg (fun f => answer (carryRequest _ f) s) (funext fun u => (execute_setEvents tag mask u).symm)
  | nop | getStatus | getDomain | getSlot | getRegion | getStagedRegion | getStagedDomain | getStagedLog | stageLoad | install
  | abort | resume | setModeGuarding | setModeBypass | takeEvent | restart =>
    cases h
    exact ⟨rfl, Nat.le_of_ble_eq_true rfl, fun _ _ => rfl, fun _ => rfl⟩
  | _ => cases h

theorem requested_powered (bytes : List Byte) (s : State) : (s.requested bytes).powered = s.powered := rfl

/-- On a listening link a request command executes its bytes in the state its frame leaves (R136). -/
theorem exec_request {c : Instr} {bytes : List Byte} {s : State} (h : requestBytes c = some bytes) (hs : s.Listening) :
    exec c s = .next (execute bytes (s.requested bytes)) := by
  have hspells := requestBytes_spells h
  rw [hspells.executes, answer, if_pos hs.1, carryRequest_listening bytes _ s hs (hspells.short.trans (by decide))]

/-- A request that comes to a post alone answers it (R138). -/
theorem exec_request_post {c : Instr} {bytes : List Byte} {s : State} {r : ResultCode} {data : List Byte}
    (h : requestBytes c = some bytes) (hs : s.Listening)
    (hx : execute bytes (s.requested bytes) = post (bytes.getD 1 0) (bytes.getD 0 0) r data (s.requested bytes)) :
    exec c s = .next (s.answered bytes r data) := by
  rw [exec_request h hs, hx, post_requested bytes _ _ r data s rfl rfl]

/-! ### Reading the part -/

/-- Settles O23: NOP's body changes nothing, GET_STATUS posts the counts. -/
theorem nopAndStatusReadThePart : Obligations.NopAndStatusReadThePart := by
  intro s tag hs
  refine ⟨exec_request (bytes := [0x00, tag]) rfl hs, exec_request_post rfl hs ?_⟩
  refine congrArg (fun data => post tag 0x01 .ok data (s.requested [0x01, tag])) ?_
  change _ ++ _ ++ _ ++ bytes2 s.activeSequence.toNat = _
  have hcopy : (s.requested [0x01, tag]).activeCopy = s.activeCopy := rfl
  rw [bytes2_word, List.countP_eq_length_filter, hcopy]
  cases s.activeCopy with
  | none => rfl
  | some c => cases c <;> rfl

theorem DomainCfg.bytes_eq (c : DomainCfg) : c.bytes =
    [BitVec.ofNat 8 (c.guardMode.code + (if c.strict then 32 else 0) + (if c.fence then 64 else 0)
        + (if c.enabled then 128 else 0)),
     BitVec.ofNat 8 c.quota, c.deadline.extractLsb' 8 8, c.deadline.extractLsb' 0 8,
     BitVec.ofNat 8 (c.commitAddr.toNat / 65536), BitVec.ofNat 8 (c.commitAddr.toNat / 256),
     BitVec.ofNat 8 c.commitAddr.toNat] := by
  simp only [DomainCfg.bytes, DomainCfg.flagByte, bytes2_word, bit_mul]
  rfl

theorem RegionEntry.bytes_eq (e : RegionEntry) : e.bytes =
    [BitVec.ofNat 8 (e.kind.code + e.domain.val * 16 + (if e.active then 128 else 0)),
     BitVec.ofNat 8 (e.base.toNat / 65536), BitVec.ofNat 8 (e.base.toNat / 256), BitVec.ofNat 8 e.base.toNat,
     BitVec.ofNat 8 e.size, BitVec.ofNat 8 (e.count / 256), BitVec.ofNat 8 e.count, if e.active then 1 else 0] := by
  simp only [RegionEntry.bytes, RegionEntry.flagByte, byte1_bit, bit_mul]
  rfl

theorem Runtime.shownList_eq (r : Runtime) : r.shownList =
    if r.state = .opened ∨ r.state = .committing then r.members else if r.state = .rolling then r.restoreList else [] := by
  cases h : r.state <;> simp [Runtime.shownList, h]

theorem Runtime.reportedOpen_bytes (r : Runtime) : bytes2 r.reportedOpen.toNat =
    if r.state = .disabled then [0, 0] else [(r.committed + 1).extractLsb' 8 8, (r.committed + 1).extractLsb' 0 8] := by
  unfold Runtime.reportedOpen
  split
  next => rfl
  next => exact bytes2_word _

/-- Settles O24: the index and the position are judged, then the record is posted. -/
theorem getDomainReportsTheRecord : Obligations.GetDomainReportsTheRecord := by
  intro s tag d p hs
  have hbody : ∀ u, execute [0x02, tag, d, p] u = reqGetDomain tag d p u := fun _ => rfl
  refine ⟨fun hd => ?_, fun hd hp => ?_, fun i hi hp => ?_⟩
  · refine exec_request_post rfl hs ?_
    rw [hbody, reqGetDomain, domainOf_none hd]
    rfl
  · refine exec_request_post rfl hs ?_
    rw [hbody, reqGetDomain, domainOf_eq (d := ⟨d.toNat, Nat.lt_succ_of_le hd⟩) rfl]
    exact if_neg (Nat.not_le.mpr hp)
  · refine exec_request_post rfl hs ?_
    rw [hbody, reqGetDomain, domainOf_eq hi]
    refine (if_pos hp).trans ?_
    refine congrArg (fun data => post tag 0x02 .ok data (s.requested [0x02, tag, d, p])) ?_
    change (s.cfg i).bytes ++ [byte1 (s.dom i).state.code] ++ bytes2 (s.dom i).committed.toNat
        ++ bytes2 (s.dom i).reportedOpen.toNat ++ [byte1 (s.dom i).backlog] ++ bytes2 (s.dom i).timer
        ++ [byte1 (s.dom i).members.length, byte1 (s.dom i).restoreList.length]
        ++ (((s.dom i).shownList.drop p.toNat).take 7).map byte1 = _
    rw [DomainCfg.bytes_eq, Runtime.reportedOpen_bytes, Runtime.shownList_eq, bytes2_word]
    simp only [bytes2, List.append_assoc]
    rfl

end Sys2Proof.Machine
end

section
/-! The requests that read tables, stage entries, and are refused by the mode (R141, R144 to R146). -/

namespace Sys2Proof.Machine

/-! ### Tables (R47, R144, R145) -/

theorem slot_eq_of_getElem? {s : State} {i : Nat} {e : PoolEntry} (h : s.pool[i]? = some e) : s.slot i = e := by
  simp [State.slot, List.getD_eq_getElem?_getD, h]

theorem foldl_wmax_le_iff (l : Layout) (w : Nat) : ∀ (rs : List (Fin 16)) (m : Nat),
    rs.foldl (fun m r => if l.regions[r].active then max m l.regions[r].size else m) m ≤ w
      ↔ m ≤ w ∧ ∀ r ∈ rs, l.regions[r].active = true → l.regions[r].size ≤ w
  | [], m => by simp
  | r :: rs, m => by
    rw [List.foldl_cons, foldl_wmax_le_iff l w rs]
    split
    next h => simp_all [and_assoc]
    next h => simp_all

theorem Layout.wmax_le_iff {l : Layout} {w : Nat} :
    l.wmax ≤ w ↔ ∀ r : Fin 16, l.regions[r].active = true → l.regions[r].size ≤ w := by
  unfold Layout.wmax
  rw [foldl_wmax_le_iff]
  simp [mem_regionIndices]

/-- Wmax is the size of a largest active region, and 0 without one (R47). -/
theorem Layout.wmax_eq {l : Layout} {w : Nat} (hle : ∀ r : Fin 16, l.regions[r].active = true → l.regions[r].size ≤ w)
    (hw : (∃ r : Fin 16, l.regions[r].active = true ∧ l.regions[r].size = w) ∨ w = 0) : l.wmax = w := by
  refine Nat.le_antisymm (Layout.wmax_le_iff.mpr hle) ?_
  obtain ⟨r, hr, rfl⟩ | rfl := hw
  · exact Layout.wmax_le_iff.mp (Nat.le_refl l.wmax) r hr
  · exact Nat.zero_le _

/-- Settles O25: an index in range posts the entry's bytes, any other BAD_INDEX. -/
theorem tablesAreReadEntryByEntry : Obligations.TablesAreReadEntryByEntry := by
  intro s tag n hs
  have hslot : ∀ u, execute [0x03, tag, n] u = reqGetSlot tag n u := fun _ => rfl
  have hregion : ∀ u, execute [0x04, tag, n] u = reqGetRegion tag n u := fun _ => rfl
  have hsregion : ∀ u, execute [0x05, tag, 0, n] u = reqGetStagedRegion tag n u := fun _ => rfl
  have hsdomain : ∀ u, execute [0x05, tag, 1, n] u = reqGetStagedDomain tag n u := fun _ => rfl
  have hslog : ∀ u, execute [0x05, tag, 2, n] u = reqGetStagedLog tag n u := fun _ => rfl
  refine ⟨fun e he => ?_, fun hn => ?_, fun r hr => ⟨?_, ?_⟩, fun hn => ⟨?_, ?_⟩, fun d hd => ?_, fun hn => ?_,
    fun hn w hle hw => ?_, fun hn => ?_⟩
  · refine exec_request_post rfl hs ?_
    obtain ⟨hlt, -⟩ := List.getElem?_eq_some_iff.mp he
    rw [hslot, reqGetSlot]
    refine (if_pos hlt).trans ?_
    refine congrArg (fun data => post tag 0x03 .ok data (s.requested [0x03, tag, n])) ?_
    change [byte1 (s.slot n.toNat).state.code, byte1 (s.slot n.toNat).domain.val] ++ bytes2 (s.slot n.toNat).epoch.toNat
      ++ [byte1 (s.slot n.toNat).region.val] ++ bytes2 (s.slot n.toNat).record ++ bytes3 (s.slotAddr n.toNat 0).toNat = _
    rw [slot_eq_of_getElem? he, bytes2_word]
    rfl
  · refine exec_request_post rfl hs ?_
    rw [hslot, reqGetSlot]
    exact if_neg (Nat.not_lt.mpr hn)
  · refine exec_request_post rfl hs ?_
    rw [hregion, reqGetRegion, regionOf_eq hr]
    exact congrArg (fun data => post tag 0x04 .ok data (s.requested [0x04, tag, n])) (RegionEntry.bytes_eq _)
  · refine exec_request_post rfl hs ?_
    rw [hsregion, reqGetStagedRegion, regionOf_eq hr]
    exact congrArg (fun data => post tag 0x05 .ok data (s.requested [0x05, tag, 0, n])) (RegionEntry.bytes_eq _)
  · refine exec_request_post rfl hs ?_
    rw [hregion, reqGetRegion, regionOf_none hn]
    rfl
  · refine exec_request_post rfl hs ?_
    rw [hsregion, reqGetStagedRegion, regionOf_none hn]
    rfl
  · refine exec_request_post rfl hs ?_
    rw [hsdomain, reqGetStagedDomain, domainOf_eq hd]
    exact congrArg (fun data => post tag 0x05 .ok data (s.requested [0x05, tag, 1, n])) (DomainCfg.bytes_eq _)
  · refine exec_request_post rfl hs ?_
    rw [hsdomain, reqGetStagedDomain, domainOf_none hn]
    rfl
  · refine exec_request_post rfl hs ?_
    rw [hslog, reqGetStagedLog]
    refine (if_pos hn).trans ?_
    refine congrArg (fun data => post tag 0x05 .ok data (s.requested [0x05, tag, 2, n])) ?_
    change bytes3 s.staging.logLength
      ++ [byte1 (bit s.staging.verify), byte1 s.staging.geometry.stride, byte1 s.staging.geometry.slots] = _
    rw [byte1_bit, Layout.geometry, Layout.wmax_eq hle hw]
    rfl
  · refine exec_request_post rfl hs ?_
    rw [hslog, reqGetStagedLog]
    exact if_neg hn

/-! ### Staging (R146) -/

theorem isBusy_eq_false {s : State} (h : s.mode = .unconfigured ∨ s.mode = .guarding ∨ s.mode = .bypass) :
    ¬ s.mode.isBusy = true := by
  obtain h | h | h := h <;> rw [h] <;> decide

theorem isBusy_eq_true {s : State} (h : s.mode = .starting ∨ s.mode = .frozen ∨ s.mode = .installing) :
    s.mode.isBusy = true := by
  obtain h | h | h := h <;> rw [h] <;> rfl

/-- A request that the mode lets through. -/
theorem unlessBusy_taken {tag code : Byte} {s u : State} (h : ¬ s.mode.isBusy = true) : unlessBusy tag code s u = u :=
  if_neg h

theorem field_bit (b : Byte) (k : Nat) : decide (field b.toNat k 1 = 1) = b.getLsbD k := by
  rw [BitVec.getLsbD, Nat.testBit_eq_decide_div_mod_eq]
  rfl

theorem ofNat_long (x : BitVec 24) : BitVec.ofNat 19 x.toNat = x.extractLsb' 0 19 := by
  apply BitVec.eq_of_toNat_eq
  simp [BitVec.extractLsb'_toNat]

theorem RegionKind.ofCode_code (k : RegionKind) : RegionKind.ofCode k.code = some k := by cases k <;> rfl

theorem RegionKind.ofCode_eq_none {n : Nat} (h : 3 ≤ n) : RegionKind.ofCode n = none := by
  match n, h with
  | n + 3, _ => rfl

theorem GuardMode.ofCode_code (g : GuardMode) : GuardMode.ofCode g.code = g := by cases g <;> rfl

theorem stagedRegion_eq_none {base : BitVec 24} {flags size : Byte} {count : Word}
    (h : ¬ (base.toNat ≤ 0x7FFFF ∧ 1 ≤ size.toNat ∧ size.toNat ≤ 64 ∧ 1 ≤ count.toNat ∧ count.toNat ≤ 4096
      ∧ flags.toNat % 4 ≠ 3)) : stagedRegion base flags size count = none := by
  unfold stagedRegion
  split
  next hr =>
    obtain ⟨hb, hs1, hs2, hc1, hc2⟩ := hr
    have hf : field flags.toNat 0 2 = 3 := by
      have : flags.toNat % 4 = 3 := by by_contra hne; exact h ⟨hb, hs1, hs2, hc1, hc2, hne⟩
      simpa [field] using this
    rw [hf]
    rfl
  next => rfl

theorem stagedRegion_eq_some {base : BitVec 24} {flags size : Byte} {count : Word} {kind : RegionKind} {d : Fin 4}
    (h : base.toNat ≤ 0x7FFFF ∧ 1 ≤ size.toNat ∧ size.toNat ≤ 64 ∧ 1 ≤ count.toNat ∧ count.toNat ≤ 4096
      ∧ flags.toNat % 4 ≠ 3) (hk : flags.toNat % 4 = kind.code) (hd : flags.toNat / 16 % 4 = d.val) :
    stagedRegion base flags size count = some
      { active := flags.getLsbD 7, base := base.extractLsb' 0 19, size := size.toNat, count := count.toNat,
        kind := kind, domain := d } := by
  obtain ⟨hb, hs1, hs2, hc1, hc2, -⟩ := h
  have hkind : field flags.toNat 0 2 = kind.code := by simpa [field] using hk
  have hdomain : Fin.ofNat 4 (field flags.toNat 4 2) = d := Fin.ext (by simpa [field] using hd)
  unfold stagedRegion
  rw [if_pos ⟨hb, hs1, hs2, hc1, hc2⟩, hkind, RegionKind.ofCode_code, Option.map_some, hdomain, field_bit, ofNat_long]

/-- Settles O26: index first, then the values; the entry spelled by the parameters replaces the staged one. -/
theorem stagingTakesCheckedEntries : Obligations.StagingTakesCheckedEntries := by
  intro s tag i flags small wide long hs hmode
  dsimp only
  have taken : ∀ (bytes : List Byte) {tag code : Byte} {u : State}, unlessBusy tag code (s.requested bytes) u = u :=
    fun _ => unlessBusy_taken (isBusy_eq_false hmode)
  refine ⟨?_, fun r kind d hi hok hk hd => ?_, fun hi => ?_, fun hi hbad => ?_, fun d g hi hok hg => ?_, fun hi => ?_,
    fun hi hbad => ?_, fun hok => ?_, fun hbad => ?_⟩
  · rw [exec_request (bytes := [0x10, tag]) rfl hs]
    exact congrArg _ (taken _)
  · rw [exec_request rfl hs]
    refine congrArg _ ?_
    rw [execute_stageRegion, reqStageRegion, taken, regionOf_eq hi, stagedRegion_eq_some hok hk hd]
    rfl
  · refine exec_request_post rfl hs ?_
    rw [execute_stageRegion, reqStageRegion, taken, regionOf_none hi]
    rfl
  · refine exec_request_post rfl hs ?_
    rw [execute_stageRegion, reqStageRegion, taken,
      regionOf_eq (r := ⟨i.toNat, Nat.lt_succ_of_le hi⟩) rfl, stagedRegion_eq_none hbad]
    rfl
  · rw [exec_request rfl hs]
    refine congrArg _ ?_
    have hguard : GuardMode.ofCode (field flags.toNat 0 2) = g := by
      rw [show field flags.toNat 0 2 = g.code by simpa [field] using hg, GuardMode.ofCode_code]
    rw [execute_stageDomain, reqStageDomain, taken, domainOf_eq hi, stagedDomain, if_pos hok, hguard]
    simp only [field_bit, ofNat_long]
    rfl
  · refine exec_request_post rfl hs ?_
    rw [execute_stageDomain, reqStageDomain, taken, domainOf_none hi]
    rfl
  · refine exec_request_post rfl hs ?_
    rw [execute_stageDomain, reqStageDomain, taken,
      domainOf_eq (d := ⟨i.toNat, Nat.lt_succ_of_le hi⟩) rfl, stagedDomain, if_neg hbad]
    rfl
  · rw [exec_request rfl hs]
    refine congrArg _ ?_
    rw [execute_stageLog, reqStageLog, taken, if_pos hok, field_bit]
    rfl
  · refine exec_request_post rfl hs ?_
    rw [execute_stageLog, reqStageLog, taken, if_neg hbad]
    rfl

/-! ### Refusals by mode (R141) -/

/-- Settles O27: each request that changes the part begins with the refusal by mode. -/
theorem requestsAreRefusedByMode : Obligations.RequestsAreRefusedByMode := by
  intro c bytes s hb hs
  have busy : ∀ (code tag : Byte) (u : State), (s.mode = .starting ∨ s.mode = .frozen ∨ s.mode = .installing) →
      unlessBusy tag code (s.requested bytes) u = post tag code .busy [] (s.requested bytes) :=
    fun _ _ _ h => if_pos (isBusy_eq_true h)
  have wrong : ∀ (code tag : Byte) (u : State), s.mode = .unconfigured →
      unlessUnguarded tag code (s.requested bytes) u = post tag code .wrongMode [] (s.requested bytes) :=
    fun _ _ _ h => (unlessBusy_taken (s := s.requested bytes) (isBusy_eq_false (.inl h))).trans (if_pos h)
  refine ⟨fun hm hc => exec_request_post hb hs ?_, fun hm hc => exec_request_post hb hs ?_⟩
  · cases c with
    | stageLoad | stageRegion | stageDomain | stageLog | install | abort | resume | setModeBypass | setModeGuarding | setEvents
    | restart =>
      cases hb
      exact busy _ _ _ hm
    | _ => cases hc
  · cases c with
    | abort | resume | setModeBypass | setModeGuarding =>
      cases hb
      exact wrong _ _ _ hm
    | _ => cases hc

end Sys2Proof.Machine
end

section
/-! The requests that steer the part: INSTALL, RESUME, SET_MODE, TAKE_EVENT and SET_EVENTS (R147, R149 to R152). -/

namespace Sys2Proof.Machine

/-! ### Quiet (R147) -/

theorem UpdateState.isQuiet_iff (u : UpdateState) : u.isQuiet = true ↔ u = .disabled ∨ u = .idle ∨ u = .fenced := by
  cases u <;> decide

theorem State.quiet_iff (s : State) : s.quiet = true ↔
    (∀ d, (s.dom d).state = .disabled ∨ (s.dom d).state = .idle ∨ (s.dom d).state = .fenced)
      ∧ ∀ e ∈ s.pool, e.state = .free ∨ e.state = .bad := by
  unfold State.quiet
  simp only [Bool.and_eq_true, List.all_eq_true, Bool.or_eq_true, decide_eq_true_eq, UpdateState.isQuiet_iff]
  exact and_congr ⟨fun h d => h d (mem_domainIndices d), fun h d _ => h d⟩ Iff.rfl

theorem State.anyBad_eq_false_iff (s : State) : s.anyBad = false ↔ ∀ e ∈ s.pool, e.state ≠ .bad := by
  simp [State.anyBad]

/-! ### INSTALL -/

theorem acceptInstall_eq (tag : Byte) (s : State) : acceptInstall tag s = { s with
    mode := .installing
    link := { (post tag codeInstall .inProgress [] s).link with pendingOp := .install tag }
    install := some
      { returnMode := if s.mode = .bypass then .bypass else .guarding
        target := if s.activeCopy = some .a then .b else .a
        sequence := if s.activeCopy = none then 1 else s.activeSequence + 1
        step := .tags 0
        back := false
        epochs := Vector.replicate 4 0 } } := by
  simp only [acceptInstall, Option.isNone_iff_eq_none]
  rfl

/-- Settles O28: quiet first, then the layout's validity, then the stream is created and the grant decision follows. -/
theorem installIsCheckedThenAccepted : Obligations.InstallIsCheckedThenAccepted := by
  intro s tag hs hmode
  dsimp only
  have taken : ∀ {u : State}, unlessBusy tag codeInstall (s.requested [0x14, tag]) u = u :=
    unlessBusy_taken (s := s.requested [0x14, tag]) (isBusy_eq_false hmode)
  have hbody : execute [0x14, tag] (s.requested [0x14, tag]) = reqInstall tag (s.requested [0x14, tag]) := rfl
  have hquiet : (s.requested [0x14, tag]).quiet = s.quiet := rfl
  refine ⟨fun hq => ?_, fun hq f hf => ?_, fun hq hv hw => ?_⟩
  · refine exec_request_post rfl hs ?_
    rw [hbody, reqInstall, taken, hquiet, if_neg (mt s.quiet_iff.mp hq)]
    rfl
  · refine exec_request_post rfl hs ?_
    have hv : validate (s.requested [0x14, tag]).logStart (s.requested [0x14, tag]).staging = some f := hf
    rw [hbody, reqInstall, taken, hquiet, if_pos (s.quiet_iff.mpr hq), hv]
    rfl
  · have hv' : validate (s.requested [0x14, tag]).logStart (s.requested [0x14, tag]).staging = none := hv
    refine ⟨_, exec_request rfl hs, ?_⟩
    rw [hbody, reqInstall, taken, hquiet, if_pos (s.quiet_iff.mpr hq), hv']
    rw [acceptInstall_eq]
    exact settleStep_granted false _ (loadReady_of_mode _ (fun h => Mode.noConfusion h)) hw

/-! ### RESUME -/

/-- Settles O30: the mode, then the domain's state; a FENCED domain is put in IDLE. -/
theorem resumeReleasesAFencedDomain : Obligations.ResumeReleasesAFencedDomain := by
  intro s tag b hs
  have hguarded : s.mode = .guarding ∨ s.mode = .bypass →
      ∀ {u : State}, unlessUnguarded tag 0x21 (s.requested [0x21, tag, b]) u = u := by
    intro hm u
    have hne : (s.requested [0x21, tag, b]).mode ≠ .unconfigured := by
      obtain hm | hm := hm <;> exact fun h => by rw [show s.mode = _ from h] at hm; cases hm
    exact (unlessBusy_taken (s := s.requested [0x21, tag, b]) (isBusy_eq_false (.inr hm))).trans (if_neg hne)
  have hbody : ∀ u, execute [0x21, tag, b] u = reqResume tag b u := fun _ => rfl
  have hrefused := requestsAreRefusedByMode (.resume tag b) [0x21, tag, b] s rfl hs
  refine ⟨fun hm => hrefused.1 hm rfl, fun hm => hrefused.2 hm rfl, fun hm hb => ?_, fun d hm hb => ?_⟩
  · refine exec_request_post rfl hs ?_
    rw [hbody, reqResume, hguarded hm, domainOf_none hb]
    rfl
  · have hdom : (s.requested [0x21, tag, b]).dom d = s.dom d := rfl
    refine ⟨fun hd => ?_, fun hd => ?_, fun hd => ?_⟩
    · rw [exec_request (bytes := [0x21, tag, b]) rfl hs, hbody, reqResume, hguarded hm, domainOf_eq hb]
      simp only [hdom, hd]
      rfl
    · refine exec_request_post rfl hs ?_
      rw [hbody, reqResume, hguarded hm, domainOf_eq hb]
      simp only [hdom, hd]
      rfl
    · refine exec_request_post rfl hs ?_
      rw [hbody, reqResume, hguarded hm, domainOf_eq hb]
      obtain hd | hd | hd | hd | hd := hd <;> (simp only [hdom, hd]; rfl)

/-! ### SET_MODE -/

/-- Settles O31: the mode in force, then quiet and, for BYPASS, no BAD slot. -/
theorem setModeNeedsAQuietPart : Obligations.SetModeNeedsAQuietPart := by
  intro s tag hs hmode
  dsimp only
  have taken : ∀ (v : Byte) {u : State}, unlessUnguarded tag 0x22 (s.requested [0x22, tag, v]) u = u := by
    intro v u
    have hne : (s.requested [0x22, tag, v]).mode ≠ .unconfigured := by
      obtain hm | hm := hmode <;> exact fun h => by rw [show s.mode = _ from h] at hm; cases hm
    exact (unlessBusy_taken (s := s.requested [0x22, tag, v]) (isBusy_eq_false (.inr hmode))).trans (if_neg hne)
  have hguarding : execute [0x22, tag, 2] (s.requested [0x22, tag, 2]) =
      if s.mode = .guarding then post tag 0x22 .ok [] (s.requested [0x22, tag, 2])
      else if s.quiet then post tag 0x22 .ok [] { s.requested [0x22, tag, 2] with mode := .guarding }
      else post tag 0x22 .notQuiet [] (s.requested [0x22, tag, 2]) := taken 2
  have hbypass : execute [0x22, tag, 3] (s.requested [0x22, tag, 3]) =
      if s.mode = .bypass then post tag 0x22 .ok [] (s.requested [0x22, tag, 3])
      else if s.quiet && !s.anyBad then post tag 0x22 .ok [] { s.requested [0x22, tag, 3] with mode := .bypass }
      else post tag 0x22 .notQuiet [] (s.requested [0x22, tag, 3]) := taken 3
  have hready : (s.quiet && !s.anyBad) = true ↔ _ :=
    (Bool.and_eq_true_iff.trans (and_congr s.quiet_iff (Bool.not_eq_true' _ |>.to_iff.trans s.anyBad_eq_false_iff)))
  refine ⟨fun h => ?_, fun hm hq => ?_, fun h => ?_, fun hm hq => ?_⟩
  · rw [exec_request (bytes := [0x22, tag, 2]) rfl hs, hguarding]
    split
    next hm => rw [← hm]; rfl
    next hm => rw [if_pos (s.quiet_iff.mpr (h.resolve_left hm))]; rfl
  · refine exec_request_post rfl hs ?_
    rw [hguarding, if_neg (by rw [hm]; decide), if_neg (mt s.quiet_iff.mp hq)]
    rfl
  · rw [exec_request (bytes := [0x22, tag, 3]) rfl hs, hbypass]
    split
    next hm => rw [← hm]; rfl
    next hm => rw [if_pos (hready.mpr (h.resolve_left hm))]; rfl
  · refine exec_request_post rfl hs ?_
    rw [hbypass, if_neg (by rw [hm]; decide), if_neg (mt hready.mp hq)]
    rfl

/-! ### Events -/

theorem EventRec.bytes_writeBlocked (reason : Reason) (addr : Addr) (region : Option (Fin 16)) (domain : Option (Fin 4))
    (count : Nat) (lost : Bool) :
    EventRec.bytes { event := .writeBlocked reason addr region domain count, lost := lost } =
      [3, BitVec.ofNat 8 ((if lost then 128 else 0) + (if region.isSome then 1 else 0) + (if domain.isSome then 2 else 0)),
       BitVec.ofNat 8 reason.code, BitVec.ofNat 8 (addr.toNat / 65536), BitVec.ofNat 8 (addr.toNat / 256),
       BitVec.ofNat 8 addr.toNat, BitVec.ofNat 8 ((region.map (·.val)).getD 0),
       BitVec.ofNat 8 ((domain.map (·.val)).getD 0), BitVec.ofNat 8 count] := by
  have hflags : bit lost * 128 + (bit region.isSome + bit domain.isSome * 2) =
      (if lost then 128 else 0) + (if region.isSome then 1 else 0) + (if domain.isSome then 2 else 0) := by
    rw [bit_mul, bit_mul, bit, Nat.add_assoc]
  rw [← hflags]
  rfl

/-- Settles O32: the queue is matched, the record's bytes posted. -/
theorem takeEventRemovesTheOldest : Obligations.TakeEventRemovesTheOldest := by
  intro s tag hs
  have hbody : execute [0x30, tag] (s.requested [0x30, tag]) = reqTakeEvent tag (s.requested [0x30, tag]) := rfl
  have hevents : (s.requested [0x30, tag]).events = s.events := rfl
  have taken : ∀ r rest, s.events = r :: rest →
      exec (.takeEvent tag) s = .next { s.answered [0x30, tag] .ok r.bytes with events := rest } := by
    intro r rest h
    rw [exec_request (bytes := [0x30, tag]) rfl hs, hbody, reqTakeEvent, hevents, h]
    rfl
  refine ⟨fun h => ?_, taken, fun reason addr region domain count lost rest h => ?_⟩
  · refine exec_request_post rfl hs ?_
    rw [hbody, reqTakeEvent, hevents, h]
    rfl
  · rw [taken _ rest h, EventRec.bytes_writeBlocked]

theorem mask_lt_iff (m : Word) : m.toNat < 512 ↔ m.extractLsb' 9 7 = 0 := by
  have h : (m.extractLsb' 9 7).toNat = m.toNat / 512 % 128 := by
    simp [BitVec.extractLsb'_toNat, Nat.shiftRight_eq_div_pow]
  have hm := m.isLt
  rw [← BitVec.toNat_inj, h, show (0 : BitVec 7).toNat = 0 from rfl]
  omega

theorem Event.maskBit_lt (e : Event) : e.maskBit < 9 := by cases e <;> exact Nat.le_of_ble_eq_true rfl

theorem getLsbD_allOnes_maskBit (e : Event) : (BitVec.allOnes 9).getLsbD e.maskBit = true := by
  rw [BitVec.getLsbD_allOnes, decide_eq_true e.maskBit_lt]

theorem resetFalls_mask {s : State} (ha : s.resetAsserted = false) (hm : s.mode ≠ .frozen) :
    (resetFalls s).mask = BitVec.allOnes 9 := by
  obtain ⟨h, -⟩ | ⟨-, h, -⟩ | ⟨-, -, h⟩ | ⟨-, -, -, h⟩ := resetFalls_cases s
  · rw [ha] at h; cases h
  · exact absurd h hm
  · rw [h]; rfl
  · rw [h]; rfl

/-- Settles O33: the mask's upper bits are judged, then the mask is replaced; power-up and RESET# set every bit. -/
theorem setEventsReplacesTheMask : Obligations.SetEventsReplacesTheMask := by
  refine ⟨fun s tag mask hs => ⟨fun hmode => ?_, fun hm => ?_⟩, getLsbD_allOnes_maskBit, fun s t straps hp ha hm ht e => ?_⟩
  · have taken : ∀ {bytes : List Byte} {u : State}, unlessBusy tag 0x31 (s.requested bytes) u = u :=
      unlessBusy_taken (isBusy_eq_false hmode)
    refine ⟨fun hbits => ?_, fun hbits => ⟨_, ?_, rfl, fun e he => ?_⟩⟩
    · refine exec_request_post rfl hs ?_
      rw [execute_setEvents, reqSetEvents, taken, if_neg (mt (mask_lt_iff mask).mp hbits)]
      rfl
    · rw [exec_request rfl hs, execute_setEvents, reqSetEvents, taken, if_pos ((mask_lt_iff mask).mpr hbits), bytes2_word]
      rfl
    · refine record_events_of_masked ?_
      change (mask.extractLsb' 0 9).getLsbD e.maskBit = false
      rw [BitVec.getLsbD_extractLsb', Nat.zero_add, he, Bool.and_false]
  · exact (requestsAreRefusedByMode (.setEvents tag mask) _ s rfl hs).1 hm rfl
  · have hexec : exec (.resetAssert straps) s = answer (fun s => resetFalls (showStraps straps s)) s := rfl
    rw [hexec, answer, if_pos hp] at ht
    cases ht
    rw [resetFalls_mask (s := showStraps straps s) ha hm]
    exact getLsbD_allOnes_maskBit e

end Sys2Proof.Machine
end

section
/-! Frames (R135 to R140): which commands leave the output copy, what FRAME_BEGIN latches and SDO shifts out, and how a frame
is judged. -/

namespace Sys2Proof.Machine

/-! ### What leaves the frame state of the link -/

theorem WorkFrame.linkFrame {s t : State} (h : WorkFrame s t) : t.link.frame = s.link.frame := by rw [h.link]

theorem installTakes_linkFrame (s : State) (data : Word) : (installTakes data s).link.frame = s.link.frame := by
  obtain h | ⟨_, st', -, h, -⟩ | ⟨_, st', -, h, -⟩ | ⟨st, -, h⟩ := installTakes_cases s data <;> rw [h]
  · rfl
  · rw [adopt_eq, (endHold_frame _).link]
    exact installAnswered_frame .ok s.link
  · rw [installFault_eq]
    exact installAnswered_frame .media s.link

theorem handOver_linkFrame (s : State) (a : Access) (data : Word) : (handOver a data s).link.frame = s.link.frame := by
  unfold handOver
  split
  next => rfl
  next =>
    split
    next hf =>
      obtain ⟨-, h⟩ | ⟨k, h⟩ | ⟨k, h⟩ | ⟨d, st, h⟩ | ⟨i, h⟩ | ⟨b, h⟩ | ⟨-, r, h⟩ := deliverFrozen_cases s a.claimant data hf <;>
        rw [h]
      · exact (hostTakes_frame s data).linkFrame
      all_goals rfl
    next =>
      cases a.claimant with
      | host => exact (hostTakes_frame s data).linkFrame
      | copy => exact (copyTakes_frame s data).linkFrame
      | commit => exact (commitTakes_frame s data).linkFrame
      | restore d => exact (restoreTakes_frame s d data).linkFrame
      | install => exact installTakes_linkFrame s data
      | retire => exact (retireTakes_frame s data).linkFrame
      | recovery => exact (recoveryTakes_recoveryFrame s data).frame

theorem completeAccess_linkFrame (f : Option Word) (a : Access) (s : State) :
    (completeAccess f a s).link.frame = s.link.frame := by
  unfold completeAccess
  rw [(settleStep_frame true _).link]
  exact handOver_linkFrame (finishAccess f a s) a _

theorem RequestEffect.receiving {s t : State} (h : RequestEffect s t) : t.link.receiving = s.link.receiving := by
  cases h with
  | installed => rw [(settleStep_frame _ _).link]; rfl
  | aborted => rw [(settleStep_frame _ _).link, (abortUpdate_frame _ _ _).link]; rfl
  | restarted => rw [(settleStep_frame _ _).link]; rfl
  | _ => rfl

/-- While a frame runs the output copy stays (R135). -/
def OutputStays (s t : State) : Prop := t.link.receiving = true → t.link.output = s.link.output

theorem OutputStays.of_frame {s t : State} (h : t.link.frame = s.link.frame) : OutputStays s t := by
  intro _
  change t.link.frame.output = s.link.frame.output
  rw [h]

theorem OutputStays.of_idle {s t : State} (h : t.link.receiving = false) : OutputStays s t := by
  intro hr
  rw [h] at hr
  cases hr

theorem settleStep_outputStays {s u : State} (h : u.link = s.link) (b : Bool) : OutputStays s (settleStep b u) :=
  .of_frame (by rw [(settleStep_frame b u).link, h])

theorem tickBody_link (s : State) : (tickBody s).link = s.link := by
  obtain ⟨r, -, h, -⟩ | ⟨-, h⟩ | h := tickBody_cases s <;> rw [h]
  · rfl
  · exact (tickDomains_frame s).link

theorem tickStep_outputStays (s : State) : OutputStays s (settleStep false (tickBody s)) :=
  settleStep_outputStays (tickBody_link s) _

theorem resetFalls_outputStays (s : State) : OutputStays s (resetFalls s) := by
  obtain ⟨-, h⟩ | ⟨-, -, h⟩ | ⟨-, -, h⟩ | ⟨-, -, -, h⟩ := resetFalls_cases s <;> rw [h]
  · exact .of_frame rfl
  · exact .of_frame rfl
  · exact .of_idle rfl
  · exact .of_idle rfl

theorem resetRises_outputStays (s : State) : OutputStays s (resetRises s) := by
  obtain ⟨-, h⟩ | ⟨-, h⟩ := resetRises_cases s <;> rw [h]
  · exact settleStep_outputStays (by rfl) _
  · exact .of_frame rfl

theorem pfwFalls_outputStays (s : State) : OutputStays s (pfwFalls s) := by
  obtain ⟨-, h⟩ | ⟨-, -, h⟩ | ⟨-, -, h⟩ := pfwFalls_cases s <;> rw [h] <;> exact .of_frame rfl

theorem pfwRises_outputStays (s : State) : OutputStays s (pfwRises s) := by
  obtain ⟨-, h⟩ | ⟨-, -, h⟩ | ⟨-, -, -, h⟩ | ⟨-, -, -, h⟩ := pfwRises_cases s <;> rw [h]
  · exact .of_frame rfl
  · exact .of_frame rfl
  · exact .of_idle (by rw [(settleStep_frame _ _).link]; rfl)
  · exact settleStep_outputStays (by rfl) _

theorem busCycle_outputStays (b : BusCycle) (s : State) : OutputStays s (busCycle b s) := by
  unfold busCycle
  split
  next => exact settleStep_outputStays (arrive_frame s b).link _
  next => exact .of_frame rfl

theorem endCycle_outputStays (s : State) : OutputStays s (endCycle s) := by
  obtain h | h | ⟨-, h | h⟩ := endCycle_cases s <;> rw [h]
  · exact settleStep_outputStays (by rfl) _
  all_goals exact .of_frame rfl

theorem completeWhen_outputStays (p : Access → Bool) (f : Option Word) (s : State) : OutputStays s (completeWhen p f s) := by
  unfold completeWhen
  split
  next a _ =>
    split
    next => exact .of_frame (completeAccess_linkFrame f a s)
    next => exact .of_frame rfl
  next => exact .of_frame rfl

theorem selectFalls_receiving {s : State} (h : s.link.receiving = true) : selectFalls s = s := by
  unfold selectFalls
  rw [h, Bool.or_true, Bool.true_or, if_pos rfl]

/-- The end of a frame closes it, whatever its request does. -/
theorem selectRises_outputStays (bytes : List Byte) {body : State → State} (hb : ∀ u, RequestEffect u (body u)) (s : State) :
    OutputStays s (selectRises bytes body s) := by
  unfold selectRises
  split
  next =>
    split
    next => exact fun _ => rfl
    next => split <;> [exact .of_idle ((hb _).receiving); exact .of_frame rfl]
  next => exact .of_frame rfl

theorem answer_outputStays {f : State → State} {s t : State} (h : answer f s = .next t) (hf : OutputStays s (f s)) :
    OutputStays s t := by
  unfold answer at h
  cases h
  split
  next => exact hf
  next => exact .of_frame rfl

/-- No command changes the output copy of a frame that runs on (R135). -/
theorem exec_outputStays (c : Instr) (s t : State) (hr : s.link.receiving = true) (h : exec c s = .next t) :
    OutputStays s t := by
  by_cases hreq : ∃ bytes, requestBytes c = some bytes
  · obtain ⟨bytes, hb⟩ := hreq
    rw [(requestBytes_spells hb).executes] at h
    refine answer_outputStays h ?_
    unfold carryRequest
    rw [selectFalls_receiving hr]
    exact selectRises_outputStays bytes (execute_effect bytes) s
  · cases c with
    | powerUp => cases h; exact .of_idle rfl
    | supplyLoss => exact answer_outputStays h (.of_idle rfl)
    | tick => exact answer_outputStays (f := fun s => settleStep false (tickBody s)) h (tickStep_outputStays s)
    | settleEnd => exact answer_outputStays h (by split <;> [exact tickStep_outputStays s; exact .of_frame rfl])
    | deadlineExpiry d => exact answer_outputStays h (by split <;> [exact tickStep_outputStays s; exact .of_frame rfl])
    | resetAssert straps =>
      exact answer_outputStays (f := fun s => resetFalls (showStraps straps s)) h (resetFalls_outputStays (showStraps straps s))
    | resetRelease straps =>
      exact answer_outputStays (f := fun s => resetRises (showStraps straps s)) h (resetRises_outputStays (showStraps straps s))
    | pfwAssert straps =>
      exact answer_outputStays (f := fun s => pfwFalls (showStraps straps s)) h (pfwFalls_outputStays (showStraps straps s))
    | pfwRelease straps =>
      exact answer_outputStays (f := fun s => pfwRises (showStraps straps s)) h (pfwRises_outputStays (showStraps straps s))
    | hostRead => exact answer_outputStays h (busCycle_outputStays _ s)
    | hostWrite => exact answer_outputStays h (busCycle_outputStays _ s)
    | hostCycleEnd => exact answer_outputStays h (endCycle_outputStays s)
    | frameBegin => exact answer_outputStays h (by rw [selectFalls_receiving hr]; exact .of_frame rfl)
    | frameEnd bytes extra => exact answer_outputStays h (selectRises_outputStays bytes (judgeFrame_effect bytes extra) s)
    | hostAccessComplete | memoryAccessComplete | copyComplete | epochWriteComplete | retireComplete | restoreSlotComplete
    | loadComplete | scanSlotJudged | recoveryRestoreComplete | installTagsComplete | installCopyComplete
    | installEpochsComplete => exact answer_outputStays h (completeWhen_outputStays _ _ s)
    | _ => exact absurd ⟨_, rfl⟩ hreq

/-! ### The output copy and SDO -/

theorem ResultRec.bytes_eq (r : ResultRec) : r.bytes =
    [r.tag, r.code, byte1 r.result.code, byte1 r.data.length] ++ r.data ++ List.replicate (24 - r.data.length) 0 := by
  have hlen : 28 - ([r.tag, r.code, byte1 r.result.code, byte1 r.data.length] ++ r.data).length = 24 - r.data.length := by
    simp only [List.length_append, List.length_cons, List.length_nil]
    omega
  unfold ResultRec.bytes
  dsimp only
  rw [hlen]

theorem statusByte_eq (s : State) : s.statusByte =
    BitVec.ofNat 8 (s.mode.code + (if s.events = [] then 0 else 8) + (if s.link.pendingOp = .none then 0 else 16)) := by
  have hevents : bit s.irqAsserted * 8 = if s.events = [] then 0 else 8 := by
    unfold State.irqAsserted
    cases s.events <;> rfl
  have hpending : bit s.longPending * 16 = if s.link.pendingOp = .none then 0 else 16 := by
    unfold State.longPending
    cases s.link.pendingOp <;> rfl
  rw [State.statusByte, hevents, hpending]

theorem sdo_eq_none {s : State} (h : s.link.receiving = false ∨ s.resetTaken = true ∨ s.powered = false) (k : Nat) :
    s.sdo k = none := by
  have hoff : (s.powered && s.link.receiving && !s.resetTaken) = false := by
    obtain h | h | h := h <;> simp [h]
  simp [State.sdo, State.shiftedOut, hoff]

theorem exec_frameEnd {s : State} (hs : s.Listening) (hr : s.link.receiving = true) (bytes : List Byte) (extra : Nat) :
    exec (.frameEnd bytes extra) s = .next (judgeFrame bytes extra (closeFrame bytes s)) := by
  obtain ⟨hp, -, hi⟩ := hs
  have hexec : exec (.frameEnd bytes extra) s = answer (selectRises bytes (judgeFrame bytes extra)) s := rfl
  rw [hexec, answer, if_pos hp, selectRises, if_pos hp, if_neg (by rw [hi]; decide), if_pos hr]

/-- Settles O22: the copy is latched at the frame's start, no command touches it, and SDO reads it off bit by bit. -/
theorem frameBeginLatchesTheOutput : Obligations.FrameBeginLatchesTheOutput := by
  intro s
  dsimp only
  refine ⟨fun hs hr => ?_, fun c t hr h => exec_outputStays c s t hr h, sdo_eq_none, fun bytes extra t hs hr h k => ?_,
    fun hp ht hr c bytes hb => ?_⟩
  · obtain ⟨hp, ht, hi⟩ := hs
    have hexec : exec .frameBegin s = .next (beginFrame s) := by
      have h : exec .frameBegin s = answer selectFalls s := rfl
      rw [h, answer, if_pos hp, selectFalls, hp, hr, hi, ht]
      rfl
    have hcopy : s.statusByte :: s.link.result.bytes = _ :=
      congrArg₂ List.cons (statusByte_eq s) (ResultRec.bytes_eq s.link.result)
    have hdriven : ∀ n, (beginFrame s).shiftedOut n =
        some (if n ≤ 29 then (s.statusByte :: s.link.result.bytes).getD (n - 1) 0 else 0) := by
      intro n
      have hon : ((beginFrame s).powered && (beginFrame s).link.receiving && !(beginFrame s).resetTaken) = true := by
        simp [beginFrame, hp, ht]
      rw [State.shiftedOut, if_pos hon]
      rfl
    refine ⟨beginFrame s, hexec, ?_, fun n _ => ?_, fun n i hi8 => ?_⟩
    · rw [beginFrame, hcopy]
      cases s.link.result.result <;> rfl
    · rw [hdriven, hcopy]
      cases s.link.result.result <;> rfl
    · have hbyte : (8 * n + i) / 8 + 1 = n + 1 := by omega
      have hbit : (8 * n + i) % 8 = i := by omega
      rw [State.sdo, hbyte, hbit, hdriven, hcopy]
      cases s.link.result.result <;> rfl
  · rw [exec_frameEnd hs hr] at h
    cases h
    exact sdo_eq_none (.inl (judgeFrame_effect bytes extra _).receiving) k
  · rw [(requestBytes_spells hb).executes, answer, if_pos hp]
    by_cases hi : s.link.ignoring = true
    · simp [carryRequest, selectFalls, selectRises, hp, hi]
    · simp [carryRequest, selectFalls, selectRises, hp, ht, hr, hi]

/-! ### Frames that are no request (R136, R137) -/

/-- The codes of the requests with their lengths (R137). -/
def requestLengths : List (Byte × Nat) :=
  [(0x00, 2), (0x01, 2), (0x02, 4), (0x03, 3), (0x04, 3), (0x05, 4), (0x10, 2), (0x11, 10), (0x12, 10), (0x13, 6),
   (0x14, 2), (0x20, 3), (0x21, 3), (0x22, 3), (0x30, 2), (0x31, 4), (0x3F, 2)]

theorem requestLength_of_mem {code : Byte} {n : Nat} (h : (code, n) ∈ requestLengths) : requestLength code = some n :=
  (by decide : ∀ p ∈ requestLengths, requestLength p.1 = some p.2) (code, n) h

theorem requestLength_eq_none {code : Byte} (h : ∀ p ∈ requestLengths, p.1 ≠ code) : requestLength code = none := by
  have hcodes : ∀ code : Byte, requestLength code = none ∨ ∃ p ∈ requestLengths, p.1 = code := by decide
  obtain hnone | ⟨p, hp, hc⟩ := hcodes code
  · exact hnone
  · exact absurd hc (h p hp)

/-- Settles O21: the judgement stops at the empty frame, at the unknown code and at the wrong length. -/
theorem faultyFramesAreAnswered : Obligations.FaultyFramesAreAnswered := by
  intro s bytes extra hs hr
  dsimp only
  refine ⟨fun hb => ?_, fun code rest hb hcode => ?_, fun code rest n hb hmem hbad => ?_⟩
  · rw [exec_frameEnd hs hr, hb]
    rfl
  · rw [exec_frameEnd hs hr, hb]
    simp only [judgeFrame, requestLength_eq_none hcode]
    rfl
  · rw [exec_frameEnd hs hr]
    subst hb
    simp only [judgeFrame, requestLength_of_mem hmem, if_pos hbad]
    rfl

end Sys2Proof.Machine
end

section
/-! The Update Controller, the Host Port and the arbiter work without the link: with another link record they do the same (so the
bytes a frame was padded with change nothing, R137). -/

namespace Sys2Proof.Machine

/-- The state with another link record. -/
def State.setLink (l : Link) (s : State) : State := { s with link := l }

/-- A function of the state that neither reads nor changes the link. -/
def LinkFree (f : State → State) : Prop := ∀ l s, f (s.setLink l) = (f s).setLink l

theorem LinkFree.comp {f g : State → State} (hf : LinkFree f) (hg : LinkFree g) : LinkFree (fun s => f (g s)) :=
  fun l s => (congrArg f (hg l s)).trans (hf l (g s))

section
variable (l : Link) (s : State)

@[simp] theorem setLink_mode : (s.setLink l).mode = s.mode := rfl
@[simp] theorem setLink_port : (s.setLink l).port = s.port := rfl
@[simp] theorem setLink_memPort : (s.setLink l).memPort = s.memPort := rfl
@[simp] theorem setLink_recovery : (s.setLink l).recovery = s.recovery := rfl
@[simp] theorem setLink_freeQueue : (s.setLink l).freeQueue = s.freeQueue := rfl
@[simp] theorem setLink_arrivals : (s.setLink l).arrivals = s.arrivals := rfl
@[simp] theorem setLink_dom (d : Fin 4) : (s.setLink l).dom d = s.dom d := rfl
@[simp] theorem setLink_cfg (d : Fin 4) : (s.setLink l).cfg d = s.cfg d := rfl
@[simp] theorem setLink_slot (i : Nat) : (s.setLink l).slot i = s.slot i := rfl
@[simp] theorem setLink_holdsWriteOf (d : Fin 4) : (s.setLink l).holdsWriteOf d = s.holdsWriteOf d := rfl
@[simp] theorem setLink_hostAtMemory : (s.setLink l).hostAtMemory = s.hostAtMemory := rfl
@[simp] theorem setLink_slotComing : (s.setLink l).slotComing = s.slotComing := rfl
@[simp] theorem setLink_isMember (h : Hit) : (s.setLink l).isMember h = s.isMember h := rfl
@[simp] theorem setLink_loadReady : (s.setLink l).loadReady = s.loadReady := rfl
@[simp] theorem setLink_standing : (s.setLink l).standing = s.standing := rfl
@[simp] theorem setLink_bestClaim : bestClaim (s.setLink l) = bestClaim s := rfl
@[simp] theorem setLink_setDom (d : Fin 4) (r : Runtime) : (s.setLink l).setDom d r = (s.setDom d r).setLink l := rfl

end

theorem record_linkFree (e : Event) : LinkFree (record e) := by
  intro l s
  rw [record_eq e (s.setLink l), record_eq e s, record_events_congr (u := s.setLink l) (v := s) e rfl rfl]
  rfl

theorem moveSlots_linkFree (old new : SlotState) : ∀ is, LinkFree (moveSlots old new is)
  | [] => fun _ _ => rfl
  | i :: is => fun l s => by
    unfold moveSlots
    rw [← moveSlots_linkFree old new is, setLink_slot]
    split <;> rfl

theorem startRollback_linkFree (d : Fin 4) (c : Cause) : LinkFree (startRollback d c) := by
  intro l s
  unfold startRollback
  dsimp only
  rw [setLink_dom, moveSlots_linkFree]
  rfl

theorem endRollback_linkFree (d : Fin 4) : LinkFree (endRollback d) := by
  intro l s
  unfold endRollback
  simp only [setLink_dom, setLink_cfg, setLink_setDom, record_linkFree _ l]
  split <;> rfl

theorem beginRestore_linkFree (d : Fin 4) : LinkFree (beginRestore d) := by
  intro l s
  unfold beginRestore
  simp only [setLink_dom, setLink_slot, setLink_setDom, endRollback_linkFree d l]
  split
  next => rfl
  next =>
    split
    next => rfl
    next =>
      split
      next => rfl
      next => exact (apply_ite (State.setLink l) _ _ _).symm

theorem reportWrite_linkFree (r : Reason) : LinkFree (reportWrite r) := by
  intro l s
  unfold reportWrite
  rw [setLink_port, record_linkFree]

theorem dropWrite_linkFree (r : Reason) : LinkFree (dropWrite r) := by
  intro l s
  unfold dropWrite
  rw [reportWrite_linkFree]
  rfl

theorem dropHeld_linkFree (d : Fin 4) : LinkFree (dropHeld d) := by
  intro l s
  unfold dropHeld
  simp only [setLink_holdsWriteOf, setLink_port, setLink_hostAtMemory, dropWrite_linkFree _ l]
  repeat' split
  all_goals rfl

theorem abortUpdate_linkFree (d : Fin 4) (c : Cause) : LinkFree (abortUpdate d c) :=
  (beginRestore_linkFree d).comp ((dropHeld_linkFree d).comp (startRollback_linkFree d c))

theorem strayDomain_linkFree (d : Fin 4) : LinkFree (strayDomain d) := by
  intro l s
  unfold strayDomain
  rw [startRollback_linkFree, beginRestore_linkFree, setLink_cfg, setLink_dom]
  split <;> rfl

theorem stray_linkFree : LinkFree stray :=
  (strayDomain_linkFree 3).comp ((strayDomain_linkFree 2).comp ((strayDomain_linkFree 1).comp (strayDomain_linkFree 0)))

theorem blockWrite_linkFree (r : Reason) (b : Bool) : LinkFree (blockWrite r b) := by
  intro l s
  have hdisp : setDisp (.block r) (s.setLink l) = (setDisp (.block r) s).setLink l := rfl
  unfold blockWrite
  dsimp only
  rw [hdisp, reportWrite_linkFree, stray_linkFree, ← apply_ite (State.setLink l)]
  rfl

theorem seekSlot_linkFree (h : Hit) : LinkFree (seekSlot h) := by
  intro l s
  unfold seekSlot
  simp only [setLink_freeQueue, setLink_slotComing, abortUpdate_linkFree _ _ l]
  split
  next => rfl
  next => split <;> rfl

theorem joinRecord_linkFree (h : Hit) : LinkFree (joinRecord h) := by
  intro l s
  unfold joinRecord
  rw [abortUpdate_linkFree, seekSlot_linkFree, setLink_dom, setLink_cfg]
  split <;> rfl

theorem evaluateGuard_linkFree (h : Hit) : LinkFree (evaluateGuard h) := by
  intro l s
  have habort := abortUpdate_linkFree h.domain .guard l (setStage .none (setBoost false s))
  unfold evaluateGuard
  dsimp only
  rw [show setStage .none (setBoost false (s.setLink l)) = (setStage .none (setBoost false s)).setLink l from rfl, habort]
  rw [show (s.setLink l).oldCommitValue h = s.oldCommitValue h from rfl, setLink_cfg, setLink_port]
  split <;> rfl

theorem commitAttempt_linkFree (h : Hit) : LinkFree (commitAttempt h) := by
  intro l s
  unfold commitAttempt
  rw [evaluateGuard_linkFree, setLink_dom]
  split <;> rfl

theorem decideJournal_linkFree (h : Hit) : LinkFree (decideJournal h) := by
  intro l s
  unfold decideJournal
  rw [show (s.setLink l).isCommitWord h.domain (s.setLink l).port.cycle.addr = s.isCommitWord h.domain s.port.cycle.addr from rfl]
  simp only [setLink_dom, setLink_isMember, joinRecord_linkFree h l, commitAttempt_linkFree h l, dropWrite_linkFree _ l]
  repeat' split
  all_goals rfl

theorem takeWrite_linkFree (c : Classification) : LinkFree (takeWrite c) := by
  intro l s
  have hand : ∀ h : Hit, handJournal h (s.setLink l) = (handJournal h s).setLink l := fun h =>
    decideJournal_linkFree h l { s with port := { s.port with state := .deciding, disp := some .journal, stage := .none } }
  unfold takeWrite
  simp only [setLink_mode, setLink_port, hand, blockWrite_linkFree _ _ l]
  repeat' split
  all_goals rfl

theorem takeAccess_linkFree : LinkFree takeAccess := by
  intro l s
  have hwrite := takeWrite_linkFree (classify s s.port.cycle.addr) l
    { s with port := { s.port with cls := some (classify s s.port.cycle.addr) } }
  have hcls : classify (s.setLink l) (s.setLink l).port.cycle.addr = classify s s.port.cycle.addr := rfl
  unfold takeAccess
  dsimp only
  rw [hcls, setLink_port]
  split
  next => split <;> [rfl; exact hwrite]
  next => rfl

theorem arrive_linkFree (c : BusCycle) : LinkFree (arrive c) := by
  intro l s
  have htake := takeAccess_linkFree l { s with port :=
    { state := .held, cycle := c, cls := none, disp := none, stage := .none, early := false, waiting := none } }
  unfold arrive
  dsimp only
  rw [setLink_mode]
  split
  next => rfl
  next => exact htake

theorem arbitrate_linkFree (b : Bool) : LinkFree (arbitrate b) := by
  intro l s
  unfold arbitrate
  simp only [setLink_memPort, setLink_standing, setLink_bestClaim, setLink_arrivals]
  rw [apply_ite (State.setLink l), apply_ite (State.setLink l)]
  refine ite_congr rfl (fun _ => rfl) fun _ => ite_congr rfl (fun _ => rfl) fun _ => ?_
  split <;> rfl

theorem loadBegin_linkFree : LinkFree loadBegin := by
  intro l s
  unfold loadBegin
  rw [setLink_loadReady]
  split <;> rfl

theorem settleStep_linkFree (b : Bool) : LinkFree (settleStep b) := by
  intro l s
  have hbegun := (arbitrate_linkFree b).comp loadBegin_linkFree l s
  unfold settleStep
  dsimp only at hbegun ⊢
  rw [hbegun, setLink_port]
  split
  next c _ _ => exact ((arbitrate_linkFree false).comp (arrive_linkFree c)) l _
  next => rfl

/-! ### Requests and the bytes received -/

/-- The state with other received bytes. -/
def State.receives (r : List Byte) (s : State) : State := { s with link := { s.link with received := r } }

/-- What neither reads nor changes the link lets other received bytes through. -/
theorem LinkFree.receives {f : State → State} (hf : LinkFree f) (hlink : ∀ s, (f s).link = s.link) (r : List Byte) (s : State) :
    f (s.receives r) = (f s).receives r := by
  have hright : (f s).receives r = (f s).setLink { s.link with received := r } := by rw [State.receives, hlink s]; rfl
  exact (hf { s.link with received := r } s).trans hright.symm

theorem settleStep_receives (b : Bool) (r : List Byte) (s : State) :
    settleStep b (s.receives r) = (settleStep b s).receives r :=
  (settleStep_linkFree b).receives (fun s => (settleStep_frame b s).link) r s

theorem abortUpdate_receives (d : Fin 4) (c : Cause) (r : List Byte) (s : State) :
    abortUpdate d c (s.receives r) = (abortUpdate d c s).receives r :=
  (abortUpdate_linkFree d c).receives (fun s => (abortUpdate_frame s d c).link) r s

theorem unlessBusy_receives {tag code : Byte} {r : List Byte} {s u v : State} (h : u = v.receives r) :
    unlessBusy tag code (s.receives r) u = (unlessBusy tag code s v).receives r := by
  unfold unlessBusy
  rw [h, show (s.receives r).mode = s.mode from rfl]
  split <;> rfl

theorem unlessUnguarded_receives {tag code : Byte} {r : List Byte} {s u v : State} (h : u = v.receives r) :
    unlessUnguarded tag code (s.receives r) u = (unlessUnguarded tag code s v).receives r := by
  refine unlessBusy_receives ?_
  rw [h, show (s.receives r).mode = s.mode from rfl]
  split <;> rfl

section
variable (r : List Byte) (s : State)

theorem reqGetDomain_receives (tag d p : Byte) : reqGetDomain tag d p (s.receives r) = (reqGetDomain tag d p s).receives r := by
  unfold reqGetDomain
  split
  next => rfl
  next => split <;> rfl

theorem reqGetSlot_receives (tag n : Byte) : reqGetSlot tag n (s.receives r) = (reqGetSlot tag n s).receives r := by
  unfold reqGetSlot
  rw [show (s.receives r).pool = s.pool from rfl]
  split <;> rfl

theorem reqGetRegion_receives (tag n : Byte) : reqGetRegion tag n (s.receives r) = (reqGetRegion tag n s).receives r := by
  unfold reqGetRegion
  split <;> rfl

theorem reqGetStaged_receives (tag k n : Byte) : reqGetStaged tag k n (s.receives r) = (reqGetStaged tag k n s).receives r := by
  unfold reqGetStaged
  split
  next => unfold reqGetStagedRegion; split <;> rfl
  next =>
    split
    next => unfold reqGetStagedDomain; split <;> rfl
    next => split <;> [(unfold reqGetStagedLog; split <;> rfl); rfl]

theorem reqStageRegion_receives (tag n : Byte) (base : BitVec 24) (flags size : Byte) (count : Word) :
    reqStageRegion tag n base flags size count (s.receives r) = (reqStageRegion tag n base flags size count s).receives r := by
  refine unlessBusy_receives ?_
  split <;> [rfl; (split <;> rfl)]

theorem reqStageDomain_receives (tag n flags quota : Byte) (deadline : Word) (commit : BitVec 24) :
    reqStageDomain tag n flags quota deadline commit (s.receives r) =
      (reqStageDomain tag n flags quota deadline commit s).receives r := by
  refine unlessBusy_receives ?_
  split <;> [rfl; (split <;> rfl)]

theorem reqStageLog_receives (tag : Byte) (len : BitVec 24) (verify : Byte) :
    reqStageLog tag len verify (s.receives r) = (reqStageLog tag len verify s).receives r := by
  refine unlessBusy_receives ?_
  split <;> rfl

theorem reqInstall_receives (tag : Byte) : reqInstall tag (s.receives r) = (reqInstall tag s).receives r := by
  refine unlessBusy_receives ?_
  rw [show (s.receives r).quiet = s.quiet from rfl,
    show validate (s.receives r).logStart (s.receives r).staging = validate s.logStart s.staging from rfl]
  split
  next => split <;> [rfl; exact settleStep_receives false r (acceptInstall tag s)]
  next => rfl

theorem reqAbort_receives (tag d : Byte) : reqAbort tag d (s.receives r) = (reqAbort tag d s).receives r := by
  refine unlessUnguarded_receives ?_
  split
  next => rfl
  next i _ =>
    rw [show (s.receives r).dom i = s.dom i from rfl]
    split
    next =>
      exact (congrArg (settleStep false) (abortUpdate_receives i .requested r (post tag 0x20 .ok _ s))).trans
        (settleStep_receives false r _)
    all_goals rfl

theorem reqResume_receives (tag d : Byte) : reqResume tag d (s.receives r) = (reqResume tag d s).receives r := by
  refine unlessUnguarded_receives ?_
  split
  next => rfl
  next i _ =>
    rw [show (s.receives r).dom i = s.dom i from rfl]
    split <;> rfl

theorem reqSetMode_receives (tag m : Byte) : reqSetMode tag m (s.receives r) = (reqSetMode tag m s).receives r := by
  unfold reqSetMode
  split
  next =>
    refine unlessUnguarded_receives ?_
    rw [show (s.receives r).mode = s.mode from rfl, show (s.receives r).quiet = s.quiet from rfl]
    split <;> [rfl; (split <;> rfl)]
  next =>
    split
    next =>
      refine unlessUnguarded_receives ?_
      rw [show (s.receives r).mode = s.mode from rfl, show (s.receives r).quiet = s.quiet from rfl,
        show (s.receives r).anyBad = s.anyBad from rfl]
      split <;> [rfl; (split <;> rfl)]
    next => exact unlessUnguarded_receives rfl

theorem reqTakeEvent_receives (tag : Byte) : reqTakeEvent tag (s.receives r) = (reqTakeEvent tag s).receives r := by
  unfold reqTakeEvent
  rw [show (s.receives r).events = s.events from rfl]
  split <;> rfl

theorem reqSetEvents_receives (tag : Byte) (mask : Word) :
    reqSetEvents tag mask (s.receives r) = (reqSetEvents tag mask s).receives r := by
  refine unlessBusy_receives ?_
  split <;> rfl

theorem reqRestart_receives (tag : Byte) : reqRestart tag (s.receives r) = (reqRestart tag s).receives r :=
  unlessBusy_receives
    (settleStep_receives false r (enterStarting .restart { s with link := { s.link with pendingOp := .restart tag } }))

/-- A request neither reads nor changes the received bytes (R137). -/
theorem execute_receives (bs : List Byte) : execute bs (s.receives r) = (execute bs s).receives r := by
  unfold execute
  dsimp only
  split
  next => rfl
  next => exact reqGetDomain_receives ..
  next => exact reqGetSlot_receives ..
  next => exact reqGetRegion_receives ..
  next => exact reqGetStaged_receives ..
  next => exact unlessBusy_receives rfl
  next => exact reqStageRegion_receives ..
  next => exact reqStageDomain_receives ..
  next => exact reqStageLog_receives ..
  next => exact reqInstall_receives ..
  next => exact reqAbort_receives ..
  next => exact reqResume_receives ..
  next => exact reqSetMode_receives ..
  next => exact reqTakeEvent_receives ..
  next => exact reqSetEvents_receives ..
  next => exact reqRestart_receives ..
  next => rfl

end

/-! ### Frames that carry a request -/

/-- The state in which a frame's request is judged: the frame in progress closed with its bytes (R136). -/
theorem closeFrame_eq {s : State} (hr : s.link.receiving = true) {bytes : List Byte} (hb : bytes.length ≤ 29) :
    closeFrame bytes s = s.requested bytes := by
  unfold closeFrame State.requested
  rw [List.take_of_length_le hb, decide_eq_false (Nat.not_lt.mpr hb), hr, if_pos rfl]

/-- A frame with a known code, long enough and with no bits to spare is executed (R136). -/
theorem exec_frameEnd_request {s : State} (hs : s.Listening) (hr : s.link.receiving = true) {bytes : List Byte} {n : Nat}
    (hb : bytes ≠ []) (hcode : requestLength (bytes.getD 0 0) = some n) (hn : n ≤ bytes.length) (hlen : bytes.length ≤ 29) :
    exec (.frameEnd bytes 0) s = .next (execute bytes (s.requested bytes)) := by
  rw [exec_frameEnd hs hr, closeFrame_eq hr hlen]
  match bytes, hb with
  | code :: rest, _ =>
    have hcode' : requestLength code = some n := hcode
    have hfine : ¬ ((code :: rest).length < n ∨ 29 < (code :: rest).length ∨ (0 : Nat) ≠ 0) := by omega
    simp only [judgeFrame, hcode', if_neg hfine]

/-- Settles O20: a frame with spare bytes is executed like the bare one, in a state with other received bytes. -/
theorem frameBytesCarryEachRequest : Obligations.FrameBytesCarryEachRequest := by
  refine ⟨fun c bytes s hb hs hr => ?_, fun s tag value i pad hs hr => ⟨fun hv hlen => ?_, fun h2 h3 hlen => ?_⟩⟩
  · have hspells := requestBytes_spells hb
    have hpadded : ∀ pad : List Byte, bytes.length + pad.length ≤ 29 →
        exec (.frameEnd (bytes ++ pad) 0) s = .next (execute bytes (s.requested (bytes ++ pad))) := by
      intro pad hlen
      have hne : bytes ≠ [] := by
        intro h
        have := hspells.length
        rw [h] at this
        cases this
      have hhead : (bytes ++ pad).getD 0 0 = bytes.getD 0 0 := by
        cases bytes with
        | nil => exact absurd rfl hne
        | cons => rfl
      rw [exec_frameEnd_request hs hr (by simp [hne]) (hhead ▸ hspells.length) (by simp) (by simpa using hlen), hspells.padded]
    refine ⟨execute bytes (s.requested bytes), ?_, exec_request hb hs, fun pad hlen => ?_⟩
    · have h := hpadded [] (by simpa using hspells.short.trans (by decide))
      rwa [List.append_nil] at h
    · rw [hpadded pad hlen]
      exact congrArg _ (execute_receives (bytes ++ pad) (s.requested bytes) bytes)
  · have hvalue : ∀ k : Byte, k.toNat ≤ 2 → value ≠ k := fun k hk h => Nat.not_lt.mpr (h ▸ hk) hv
    rw [exec_frameEnd_request (bytes := [0x05, tag, value, i] ++ pad) (n := 4) hs hr (List.cons_ne_nil _ _) rfl (by simp)
      (by simp; omega)]
    refine congrArg _ ?_
    change reqGetStaged tag value i _ = _
    rw [reqGetStaged, if_neg (hvalue 0 (by decide)), if_neg (hvalue 1 (by decide)), if_neg (hvalue 2 (by decide))]
    rfl
  · have hexec : exec (.frameEnd ([0x22, tag, value] ++ pad) 0) s =
        .next (unlessUnguarded tag 0x22 (s.requested ([0x22, tag, value] ++ pad))
          (post tag 0x22 .badValue [] (s.requested ([0x22, tag, value] ++ pad)))) := by
      rw [exec_frameEnd_request (bytes := [0x22, tag, value] ++ pad) (n := 3) hs hr (List.cons_ne_nil _ _) rfl (by simp)
        (by simp; omega)]
      refine congrArg _ ?_
      change reqSetMode tag value _ = _
      rw [reqSetMode, if_neg h2, if_neg h3]
    refine ⟨fun hm => ?_, fun hm => ?_, fun hm => ?_⟩
    · rw [hexec, unlessUnguarded, unlessBusy, if_pos (isBusy_eq_true (s := s.requested _) hm)]
      rfl
    · rw [hexec, unlessUnguarded, unlessBusy_taken (isBusy_eq_false (s := s.requested _) (.inl hm)), if_pos (by exact hm)]
      rfl
    · have hne : (s.requested ([0x22, tag, value] ++ pad)).mode ≠ .unconfigured := by
        obtain hm | hm := hm <;> exact fun h => by rw [show s.mode = _ from h] at hm; cases hm
      rw [hexec, unlessUnguarded, unlessBusy_taken (isBusy_eq_false (s := s.requested _) (.inr hm)), if_neg hne]
      rfl

end Sys2Proof.Machine
end

section
/-! Validation (R156): the tests of the eight checks, sharing of words said word by word, and the first failure. -/

namespace Sys2Proof.Machine

/-! ### The first entry that fails -/

/-- In a list in strict order, the search finds an element that passes when none before it does. -/
theorem find?_eq_some_of_first {α : Type} {lt : α → α → Prop} {p : α → Bool} {a : α} : ∀ {l : List α}, l.Pairwise lt → a ∈ l →
    p a = true → (∀ b, lt b a → p b = false) → l.find? p = some a
  | [], _, ha, _, _ => (List.not_mem_nil ha).elim
  | x :: xs, hs, ha, hp, hbefore => by
    obtain ⟨hx, hxs⟩ := List.pairwise_cons.mp hs
    obtain rfl | ha := List.mem_cons.mp ha
    · exact List.find?_cons_of_pos hp
    · rw [List.find?_cons_of_neg (by rw [hbefore x (hx a ha)]; decide)]
      exact find?_eq_some_of_first hxs ha hp hbefore

theorem regionIndices_sorted : regionIndices.Pairwise (· < ·) := by decide

theorem domainIndices_sorted : domainIndices.Pairwise (· < ·) := by decide

theorem firstRegion_eq_some {detail : ConfigDetail} {ok : Fin 16 → Bool} {r : Fin 16} (hr : ok r = false)
    (hbefore : ∀ q, q < r → ok q = true) :
    firstRegion detail ok = some { detail := detail, first := r.val, second := 0 } := by
  rw [firstRegion, find?_eq_some_of_first regionIndices_sorted (mem_regionIndices r) (by rw [hr]; rfl)
    (fun q hq => by rw [hbefore q hq]; rfl)]
  rfl

theorem firstDomain_eq_some {detail : ConfigDetail} {ok : Fin 4 → Bool} {d : Fin 4} (hd : ok d = false)
    (hbefore : ∀ e, e < d → ok e = true) :
    firstDomain detail ok = some { detail := detail, first := d.val, second := 0 } := by
  rw [firstDomain, find?_eq_some_of_first domainIndices_sorted (mem_domainIndices d) (by rw [hd]; rfl)
    (fun e he => by rw [hbefore e he]; rfl)]
  rfl

/-! ### The tests of the checks -/

/-- Two runs of words meet when some word is in both. -/
theorem spansMeet_eq_true_iff (b1 n1 b2 n2 : Nat) :
    spansMeet b1 n1 b2 n2 = true ↔ ∃ a, (b1 ≤ a ∧ a < b1 + n1) ∧ b2 ≤ a ∧ a < b2 + n2 := by
  simp only [spansMeet, Bool.and_eq_true, decide_eq_true_eq]
  constructor
  · rintro ⟨⟨⟨h1, h2⟩, h3⟩, h4⟩
    exact ⟨max b1 b2, by omega, by omega⟩
  · rintro ⟨a, ⟨h1, h2⟩, h3, h4⟩
    omega

theorem check1_iff {start : Nat} {l : Layout} : check1 start l = none ↔ l.LogFits start := by
  rw [check1_eq_none_iff]
  unfold Layout.LogInRange Layout.LogFits
  omega

theorem check1_fails {start : Nat} {l : Layout} (h : ¬ l.LogFits start) :
    check1 start l = some { detail := .outOfRange, first := 0, second := 0 } := by
  unfold check1
  rw [if_neg]
  intro hc
  exact h (check1_iff.mp (if_pos hc))

theorem RegionEntry.inRange_iff (e : RegionEntry) : e.inRange = true ↔ 1 ≤ e.size ∧ e.size ≤ 64 ∧ 1 ≤ e.count
    ∧ e.count ≤ 4096 ∧ (e.active = true → e.base.toNat + e.size * e.count - 1 ≤ 0x7FFFF) := by
  simp only [RegionEntry.inRange, Bool.and_eq_true, Bool.or_eq_true, decide_eq_true_eq, Bool.not_eq_true', and_assoc,
    RegionEntry.wordCount]
  refine and_congr_right fun hs => and_congr_right fun _ => and_congr_right fun hc => and_congr_right fun _ => ?_
  have hpos : 1 ≤ e.size * e.count := Nat.mul_pos hs hc
  cases e.active with
  | false => simp
  | true =>
    simp only [reduceCtorEq, false_or, forall_const]
    exact decide_eq_true_iff.trans (by omega)

theorem inRange_iff {l : Layout} {r : Fin 16} : l.regions[r].inRange = true ↔ l.EntryFits r :=
  l.regions[r].inRange_iff

theorem offTheLog_iff {start : Nat} {l : Layout} {r : Fin 16} :
    (!(l.regions[r].active && spansMeet l.regions[r].base.toNat l.regions[r].wordCount start l.logLength)) = true
      ↔ l.OffTheLog start r := by
  rw [Bool.not_eq_true', Bool.and_eq_false_iff, ← Bool.not_eq_true, ← Bool.not_eq_true, spansMeet_eq_true_iff]
  constructor
  · rintro (h | h) hactive a hword hlog
    · exact h hactive
    · exact h ⟨a, hword, hlog⟩
  · intro h
    by_cases hactive : l.regions[r].active = true
    · exact .inr fun ⟨a, hword, hlog⟩ => h hactive a hword hlog
    · exact .inl hactive

theorem overlap_iff {l : Layout} {i j : Fin 16} : l.overlap i j = true ↔ i < j ∧ ¬ l.Apart i j := by
  simp only [Layout.overlap, Bool.and_eq_true, decide_eq_true_eq, spansMeet_eq_true_iff, and_assoc]
  refine and_congr_right fun _ => ⟨?_, fun h => ?_⟩
  · rintro ⟨hi, hj, a, h1, h2, h3, h4⟩ hapart
    exact hapart hi hj a ⟨h1, h2⟩ ⟨h3, h4⟩
  · unfold Layout.Apart at h
    push Not at h
    obtain ⟨hi, hj, a, ⟨h1, h2⟩, h3, h4⟩ := h
    exact ⟨hi, hj, a, h1, h2, h3, h4⟩

theorem domainOn_iff {l : Layout} {r : Fin 16} :
    (!l.regions[r].active || decide (l.regions[r].kind = .fixed) || l.domains[l.regions[r].domain].enabled) = true
      ↔ l.DomainOn r := by
  unfold Layout.DomainOn
  rw [Bool.or_eq_true, Bool.or_eq_true, Bool.not_eq_true', ← Bool.not_eq_true, decide_eq_true_eq]
  tauto

theorem commitInside_iff {l : Layout} {d : Fin 4} :
    (!l.domains[d].enabled || regionIndices.any fun r => l.regions[r].covers l.domains[d].commitAddr.toNat
        && decide (l.regions[r].kind = .journal) && decide (l.regions[r].domain = d)) = true ↔ l.CommitInside d := by
  have hinside : (regionIndices.any fun r => l.regions[r].covers l.domains[d].commitAddr.toNat
        && decide (l.regions[r].kind = .journal) && decide (l.regions[r].domain = d)) = true ↔
      ∃ r : Fin 16, l.regions[r].active = true ∧ l.regions[r].kind = .journal ∧ l.regions[r].domain = d
        ∧ l.HasWord r l.domains[d].commitAddr.toNat := by
    rw [List.any_eq_true]
    refine exists_congr fun r => ?_
    simp only [mem_regionIndices, true_and, RegionEntry.covers, Bool.and_eq_true, decide_eq_true_eq, Layout.HasWord]
    tauto
  unfold Layout.CommitInside
  rw [Bool.or_eq_true, hinside, Bool.not_eq_true']
  cases l.domains[d].enabled <;> simp

theorem quotaFits_iff {l : Layout} {d : Fin 4} :
    (!l.domains[d].enabled || decide (l.domains[d].quota ≤ l.geometry.slots)) = true ↔ l.QuotaFits d := by
  unfold Layout.QuotaFits
  cases l.domains[d].enabled <;> simp

/-! ### Check 4: the pairs in their order -/

/-- A pair stands before another: by its lower, then by its higher index (R156). -/
def PairBefore (p q : Fin 16 × Fin 16) : Prop := p.1 < q.1 ∨ (p.1 = q.1 ∧ p.2 < q.2)

/-- The pairs of regions in the order of check 4. -/
def regionPairs : List (Fin 16 × Fin 16) := regionIndices.flatMap fun i => regionIndices.map fun j => (i, j)

theorem mem_regionPairs (p : Fin 16 × Fin 16) : p ∈ regionPairs := by
  simp [regionPairs, mem_regionIndices]

theorem regionPairs_sorted : regionPairs.Pairwise PairBefore := by
  refine List.pairwise_flatMap.mpr ⟨fun i _ => ?_, regionIndices_sorted.imp ?_⟩
  · exact List.pairwise_map.mpr (regionIndices_sorted.imp fun h => .inr ⟨rfl, h⟩)
  · intro i j hij p hp q hq
    obtain ⟨_, -, rfl⟩ := List.mem_map.mp hp
    obtain ⟨_, -, rfl⟩ := List.mem_map.mp hq
    exact .inl hij

theorem check4_iff {l : Layout} : check4 l = none ↔ ∀ r q, r < q → l.Apart r q := by
  change (regionPairs.find? fun p => l.overlap p.1 p.2).map _ = none ↔ _
  rw [Option.map_eq_none_iff, List.find?_eq_none]
  constructor
  · intro h r q hrq
    by_contra hmeet
    exact h (r, q) (mem_regionPairs _) (overlap_iff.mpr ⟨hrq, hmeet⟩)
  · intro h p _ hmeet
    obtain ⟨hlt, hnot⟩ := overlap_iff.mp hmeet
    exact hnot (h p.1 p.2 hlt)

theorem check4_fails {l : Layout} {r q : Fin 16} (hrq : r < q) (hmeet : ¬ l.Apart r q)
    (hbefore : ∀ r' q', r' < q' → r' < r ∨ (r' = r ∧ q' < q) → l.Apart r' q') :
    check4 l = some { detail := .overlap, first := r.val, second := q.val } := by
  have hfound : regionPairs.find? (fun p => l.overlap p.1 p.2) = some (r, q) := by
    refine find?_eq_some_of_first regionPairs_sorted (mem_regionPairs _) (overlap_iff.mpr ⟨hrq, hmeet⟩) fun p hp => ?_
    rw [← Bool.not_eq_true, overlap_iff]
    rintro ⟨hlt, hnot⟩
    exact hnot (hbefore p.1 p.2 hlt hp)
  change (regionPairs.find? fun p => l.overlap p.1 p.2).map _ = _
  rw [hfound]
  rfl

/-! ### The checks in order -/

theorem check2_iff {l : Layout} : check2 l = none ↔ ∀ r, l.EntryFits r :=
  (check2_eq_none_iff l).trans (forall_congr' fun _ => inRange_iff)

theorem check3_iff {start : Nat} {l : Layout} : check3 start l = none ↔ ∀ r, l.OffTheLog start r :=
  (firstRegion_eq_none_iff _ _).trans (forall_congr' fun _ => offTheLog_iff)

theorem check5_iff {l : Layout} : check5 l = none ↔ ∀ r, l.DomainOn r :=
  (firstRegion_eq_none_iff _ _).trans (forall_congr' fun _ => domainOn_iff)

theorem check6_iff {l : Layout} : check6 l = none ↔ ∀ d, l.CommitInside d :=
  (firstDomain_eq_none_iff _ _).trans (forall_congr' fun _ => commitInside_iff)

theorem check7_iff {l : Layout} : check7 l = none ↔ 1 ≤ l.geometry.slots := by
  unfold check7
  split <;> simp [*]

theorem check8_iff {l : Layout} : check8 l = none ↔ ∀ d, l.QuotaFits d :=
  (firstDomain_eq_none_iff _ _).trans (forall_congr' fun _ => quotaFits_iff)

/-- The first check that fails decides (R156). -/
theorem validate_eq_or (start : Nat) (l : Layout) : validate start l =
    (check1 start l).or ((check2 l).or ((check3 start l).or ((check4 l).or ((check5 l).or ((check6 l).or
      ((check7 l).or (check8 l))))))) := by
  unfold validate
  repeat' split
  all_goals simp [*]

theorem validate_of_four {start : Nat} {l : Layout} (h : l.PassesFour start) :
    validate start l = (check5 l).or ((check6 l).or ((check7 l).or (check8 l))) := by
  obtain ⟨h1, h2, h3, h4⟩ := h
  rw [validate_eq_or, check1_iff.mpr h1, check2_iff.mpr h2, check3_iff.mpr h3, check4_iff.mpr h4]
  rfl

/-- Settles O16: each check's test says its rule, and the first that fails names the first entry that does. -/
theorem validationIsTheEightChecks : Obligations.ValidationIsTheEightChecks := by
  intro start l
  dsimp only
  refine ⟨?_, fun h1 => ?_, fun r h1 hr hb => ?_, fun r h1 h2 hr hb => ?_, fun r q h1 h2 h3 hrq hr hb => ?_,
    fun r h4 hr hb => ?_, fun d h4 h5 hd hb => ?_, fun h4 h5 h6 h7 => ?_, fun d h4 h5 h6 h7 hd hb => ?_⟩
  · rw [validate_eq_none_iff, check1_iff, check2_iff, check3_iff, check4_iff, check5_iff, check6_iff, check7_iff, check8_iff]
    unfold Layout.PassesFour
    simp only [and_assoc]
  · rw [validate_eq_or, check1_fails h1]
    rfl
  · rw [validate_eq_or, check1_iff.mpr h1, check2, firstRegion_eq_some (Bool.eq_false_iff.mpr (mt inRange_iff.mp hr))
      fun q hq => inRange_iff.mpr (hb q hq)]
    rfl
  · rw [validate_eq_or, check1_iff.mpr h1, check2_iff.mpr h2, check3,
      firstRegion_eq_some (Bool.eq_false_iff.mpr (mt offTheLog_iff.mp hr)) fun q hq => offTheLog_iff.mpr (hb q hq)]
    rfl
  · rw [validate_eq_or, check1_iff.mpr h1, check2_iff.mpr h2, check3_iff.mpr h3, check4_fails hrq hr hb]
    rfl
  · rw [validate_of_four h4, check5, firstRegion_eq_some (Bool.eq_false_iff.mpr (mt domainOn_iff.mp hr))
      fun q hq => domainOn_iff.mpr (hb q hq)]
    rfl
  · rw [validate_of_four h4, check5_iff.mpr h5, check6,
      firstDomain_eq_some (Bool.eq_false_iff.mpr (mt commitInside_iff.mp hd)) fun e he => commitInside_iff.mpr (hb e he)]
    rfl
  · rw [validate_of_four h4, check5_iff.mpr h5, check6_iff.mpr h6, check7, if_neg h7]
    rfl
  · rw [validate_of_four h4, check5_iff.mpr h5, check6_iff.mpr h6, check7_iff.mpr h7, check8,
      firstDomain_eq_some (Bool.eq_false_iff.mpr (mt quotaFits_iff.mp hd)) fun e he => quotaFits_iff.mpr (hb e he)]
    rfl

end Sys2Proof.Machine
end

section
/-! A configuration copy reads back (R120, R161, R180, R181): where each entry stands in the 128 words, and that its words give
it back. -/

namespace Sys2Proof.Machine

/-! ### Lists of words and vectors of entries -/

/-- Word j of the i-th of the runs of n words a list is made of. -/
theorem getElem?_flatMap_runs {α β : Type} {f : α → List β} {n : Nat} (hf : ∀ a, (f a).length = n) {j : Nat} (hj : j < n) :
    ∀ (l : List α) (i : Nat), (l.flatMap f)[n * i + j]? = l[i]?.bind fun a => (f a)[j]?
  | [], i => by simp
  | a :: l, 0 => by
    rw [List.flatMap_cons, Nat.mul_zero, Nat.zero_add, List.getElem?_append_left (by rw [hf]; exact hj)]
    rfl
  | a :: l, i + 1 => by
    rw [List.flatMap_cons, List.getElem?_append_right (by rw [hf, Nat.mul_succ]; omega), hf,
      show n * (i + 1) + j - n = n * i + j by rw [Nat.mul_succ]; omega, getElem?_flatMap_runs hf hj l i]
    rfl

/-- What a run of updates leaves in a vector. -/
theorem getElem_foldl_set {α : Type} {n : Nat} (f : Fin n → α) : ∀ (l : List (Fin n)) (v : Vector α n) (i : Fin n),
    (l.foldl (fun v r => v.set r (f r)) v)[i] = if i ∈ l then f i else v[i]
  | [], v, i => by simp
  | r :: l, v, i => by
    rw [List.foldl_cons, getElem_foldl_set f l]
    by_cases hi : i ∈ l
    · simp [hi]
    · by_cases hr : r = i
      · subst hr
        simp [hi]
      · have hne : ¬ (r : Nat) = i := fun h => hr (Fin.ext h)
        have hne' : ¬ i = r := fun h => hr h.symm
        simp [hi, hne, hne']

/-- A vector is what its entries, all put in place, make of any other. -/
theorem foldl_set_eq {α : Type} {n : Nat} {f : Fin n → α} {l : List (Fin n)} (hl : ∀ i, i ∈ l) (v w : Vector α n)
    (hw : ∀ i : Fin n, f i = w[i]) : l.foldl (fun v r => v.set r (f r)) v = w := by
  ext i hi
  have h := getElem_foldl_set f l v ⟨i, hi⟩
  rw [if_pos (hl _), hw] at h
  exact h

theorem readRegions_eq_some {ws : List Word} {f : Fin 16 → RegionEntry} : ∀ (rs : List (Fin 16)) (v : Vector RegionEntry 16),
    (∀ r, readRegion ws (8 + 4 * r.val) = some (f r)) →
    readRegions ws rs v = some (rs.foldl (fun v r => v.set r (f r)) v)
  | [], _, _ => rfl
  | r :: rs, v, h => by
    rw [readRegions, h r, List.foldl_cons]
    exact readRegions_eq_some rs _ h

/-! ### One entry (R180) -/

theorem RegionEntry.words_length (e : RegionEntry) : e.words.length = 4 := rfl

theorem DomainCfg.words_length (c : DomainCfg) : c.words.length = 4 := rfl

theorem toNat_ofNat_word {n : Nat} (h : n < 65536) : (BitVec.ofNat 16 n).toNat = n := by
  rw [BitVec.toNat_ofNat]
  exact Nat.mod_eq_of_lt h

theorem bit_le (b : Bool) : bit b ≤ 1 := by cases b <;> decide

theorem decide_bit (b : Bool) : decide (bit b = 1) = b := by cases b <;> rfl

theorem RegionKind.code_le (k : RegionKind) : k.code ≤ 2 := by cases k <;> decide

theorem GuardMode.code_le (g : GuardMode) : g.code ≤ 3 := by cases g <;> decide

theorem ofNat_addr {a : Addr} {n : Nat} (h : n = a.toNat) : BitVec.ofNat 19 n = a := by
  rw [h, BitVec.ofNat_toNat, BitVec.setWidth_eq]

/-- The four words of a region entry are read as that entry. -/
theorem readRegion_eq_some {ws : List Word} {k : Nat} {e : RegionEntry}
    (hw : ∀ j, j < 4 → ws[k + j]? = e.words[j]?) (hsize : e.size ≤ 64) (hcount : e.count ≤ 4096) :
    readRegion ws k = some e := by
  have hbase := e.base.isLt
  have hdomain := e.domain.isLt
  have hkind := e.kind.code_le
  have hactive := bit_le e.active
  have h0 : wordOf ws k = e.base.toNat % 65536 := by
    rw [wordOf, List.getD_eq_getElem?_getD, show ws[k]? = _ from hw 0 (by omega)]
    exact toNat_ofNat_word (Nat.mod_lt _ (by omega))
  have h1 : wordOf ws (k + 1) = e.base.toNat / 65536 + e.kind.code * 16 + e.domain.val * 256 + bit e.active * 32768 := by
    rw [wordOf, List.getD_eq_getElem?_getD, hw 1 (by omega)]
    exact toNat_ofNat_word (by omega)
  have h2 : wordOf ws (k + 2) = e.size := by
    rw [wordOf, List.getD_eq_getElem?_getD, hw 2 (by omega)]
    exact toNat_ofNat_word (by omega)
  have h3 : wordOf ws (k + 3) = e.count := by
    rw [wordOf, List.getD_eq_getElem?_getD, hw 3 (by omega)]
    exact toNat_ofNat_word (by omega)
  have hfkind : field (wordOf ws (k + 1)) 4 2 = e.kind.code := by
    rw [h1]
    simp only [field, Nat.reducePow]
    omega
  have hfactive : field (wordOf ws (k + 1)) 15 1 = bit e.active := by
    rw [h1]
    simp only [field, Nat.reducePow]
    omega
  have hfdomain : Fin.ofNat 4 (field (wordOf ws (k + 1)) 8 2) = e.domain := by
    refine Fin.ext ?_
    rw [h1]
    simp only [field, Nat.reducePow, Fin.ofNat]
    omega
  have hfbase : wordOf ws k + field (wordOf ws (k + 1)) 0 3 * 65536 = e.base.toNat := by
    rw [h0, h1]
    simp only [field, Nat.reducePow]
    omega
  rw [readRegion, hfkind, RegionKind.ofCode_code, Option.map_some, hfactive, hfdomain, decide_bit, ofNat_addr hfbase, h2, h3]

/-- The four words of a domain entry are read as that entry. -/
theorem readDomain_eq {ws : List Word} {k : Nat} {c : DomainCfg}
    (hw : ∀ j, j < 4 → ws[k + j]? = c.words[j]?) (hq1 : 1 ≤ c.quota) (hq2 : c.quota ≤ 128) : readDomain ws k = c := by
  have haddr := c.commitAddr.isLt
  have hguard := c.guardMode.code_le
  have henabled := bit_le c.enabled
  have hfence := bit_le c.fence
  have hstrict := bit_le c.strict
  have h0 : wordOf ws k = bit c.enabled * 32768 + bit c.fence * 16384 + bit c.strict * 8192 + c.guardMode.code * 256
      + (c.quota - 1) % 128 := by
    rw [wordOf, List.getD_eq_getElem?_getD, show ws[k]? = _ from hw 0 (by omega)]
    exact toNat_ofNat_word (by omega)
  have h1 : wordOf ws (k + 1) = c.commitAddr.toNat % 65536 := by
    rw [wordOf, List.getD_eq_getElem?_getD, hw 1 (by omega)]
    exact toNat_ofNat_word (Nat.mod_lt _ (by omega))
  have h2 : wordOf ws (k + 2) = c.commitAddr.toNat / 65536 := by
    rw [wordOf, List.getD_eq_getElem?_getD, hw 2 (by omega)]
    exact toNat_ofNat_word (by omega)
  have h3 : ws.getD (k + 3) 0 = c.deadline := by
    rw [List.getD_eq_getElem?_getD, hw 3 (by omega)]
    rfl
  have hfenabled : field (wordOf ws k) 15 1 = bit c.enabled := by
    rw [h0]
    simp only [field, Nat.reducePow]
    omega
  have hffence : field (wordOf ws k) 14 1 = bit c.fence := by
    rw [h0]
    simp only [field, Nat.reducePow]
    omega
  have hfstrict : field (wordOf ws k) 13 1 = bit c.strict := by
    rw [h0]
    simp only [field, Nat.reducePow]
    omega
  have hfguard : field (wordOf ws k) 8 2 = c.guardMode.code := by
    rw [h0]
    simp only [field, Nat.reducePow]
    omega
  have hfquota : field (wordOf ws k) 0 7 + 1 = c.quota := by
    rw [h0]
    simp only [field, Nat.reducePow]
    omega
  have hfaddr : wordOf ws (k + 1) + field (wordOf ws (k + 2)) 0 3 * 65536 = c.commitAddr.toNat := by
    rw [h1, h2]
    simp only [field, Nat.reducePow]
    omega
  rw [readDomain, hfenabled, hffence, hfstrict, hfguard, hfquota, ofNat_addr hfaddr, h3, GuardMode.ofCode_code]
  simp only [decide_bit]

/-! ### The 128 words -/

theorem copyRegions_length (l : Layout) : (regionIndices.flatMap fun r => l.regions[r].words).length = 64 := rfl

theorem copyDomains_length (l : Layout) : (domainIndices.flatMap fun d => l.domains[d].words).length = 16 := rfl

theorem copyBody_length (sequence : Word) (l : Layout) : (copyBody sequence l).length = 127 := by
  simp only [copyBody, List.length_append, copyRegions_length, copyDomains_length, List.length_replicate, List.length_cons,
    List.length_nil]

theorem copyWords_length (sequence : Word) (l : Layout) : (copyWords sequence l).length = 128 := by
  rw [copyWords, List.length_append, copyBody_length]
  rfl

theorem copyWords_region (sequence : Word) (l : Layout) (r : Fin 16) {j : Nat} (hj : j < 4) :
    (copyWords sequence l)[8 + 4 * r.val + j]? = l.regions[r].words[j]? := by
  have hr := r.isLt
  have hruns := getElem?_flatMap_runs (f := fun r => l.regions[r].words) (n := 4) (fun _ => rfl) hj regionIndices r.val
  have hindex : regionIndices[r.val]? = some r := (by decide : ∀ r : Fin 16, regionIndices[r.val]? = some r) r
  rw [hindex] at hruns
  unfold copyWords copyBody
  rw [List.append_assoc, List.append_assoc, List.append_assoc, List.getElem?_append_right (by simp; omega),
    List.getElem?_append_left (by rw [copyRegions_length]; simp; omega)]
  refine Eq.trans ?_ hruns
  congr 1
  simp
  omega

theorem copyWords_domain (sequence : Word) (l : Layout) (d : Fin 4) {j : Nat} (hj : j < 4) :
    (copyWords sequence l)[72 + 4 * d.val + j]? = l.domains[d].words[j]? := by
  have hd := d.isLt
  have hruns := getElem?_flatMap_runs (f := fun d => l.domains[d].words) (n := 4) (fun _ => rfl) hj domainIndices d.val
  have hindex : domainIndices[d.val]? = some d := (by decide : ∀ d : Fin 4, domainIndices[d.val]? = some d) d
  rw [hindex] at hruns
  unfold copyWords copyBody
  rw [List.append_assoc, List.append_assoc, List.append_assoc, List.getElem?_append_right (by simp; omega),
    List.getElem?_append_right (by rw [copyRegions_length]; simp; omega),
    List.getElem?_append_left (by rw [copyRegions_length, copyDomains_length]; simp; omega), copyRegions_length]
  refine Eq.trans ?_ hruns
  congr 1
  simp
  omega

theorem copyWords_length_fields (sequence : Word) (l : Layout) (h : l.logLength ≤ 0x80000) :
    wordOf (copyWords sequence l) 2 + field (wordOf (copyWords sequence l) 3) 0 4 * 65536 = l.logLength := by
  have h2 : wordOf (copyWords sequence l) 2 = l.logLength % 65536 := toNat_ofNat_word (Nat.mod_lt _ (by omega))
  have h3 : wordOf (copyWords sequence l) 3 = l.logLength / 65536 % 16 := toNat_ofNat_word (by omega)
  rw [h2, h3]
  simp only [field, Nat.reducePow]
  omega

theorem copyWords_verify (sequence : Word) (l : Layout) :
    decide (field (wordOf (copyWords sequence l) 4) 0 1 = 1) = l.verify := by
  have hbit := bit_le l.verify
  have h4 : wordOf (copyWords sequence l) 4 = bit l.verify := toNat_ofNat_word (by omega)
  have hfield : field (wordOf (copyWords sequence l) 4) 0 1 = bit l.verify := by
    rw [h4]
    simp only [field, Nat.reducePow]
    omega
  rw [hfield, decide_bit]

theorem readLayout_copyWords (sequence : Word) (l : Layout) (hl : l.InRange) (hlog : l.logLength ≤ 0x80000) :
    readLayout (copyWords sequence l) = some l := by
  obtain ⟨hregions, hdomains⟩ := hl
  have hr : ∀ r : Fin 16, readRegion (copyWords sequence l) (8 + 4 * r.val) = some l.regions[r] := by
    intro r
    obtain ⟨-, hsize, -, hcount⟩ := hregions r
    exact readRegion_eq_some (fun j hj => copyWords_region sequence l r hj) hsize hcount
  have hd : ∀ d : Fin 4, readDomain (copyWords sequence l) (72 + 4 * d.val) = l.domains[d] := by
    intro d
    obtain ⟨hq1, hq2⟩ := hdomains d
    exact readDomain_eq (fun j hj => copyWords_domain sequence l d hj) hq1 hq2
  rw [readLayout, readRegions_eq_some regionIndices _ hr, Option.map_some,
    foldl_set_eq mem_regionIndices _ l.regions fun _ => rfl, foldl_set_eq mem_domainIndices _ l.domains hd,
    copyWords_length_fields sequence l hlog, copyWords_verify]

/-- Settles O17: magic and CRC agree by construction, and each entry reads back from its four words. -/
theorem configurationCopyReadsBack : Obligations.ConfigurationCopyReadsBack := by
  intro start sequence l hl hv
  refine ⟨copyWords_length sequence l, ?_⟩
  have hlog : l.logLength ≤ 0x80000 := by
    obtain ⟨h1, -⟩ := (validate_eq_none_iff start l).mp hv
    obtain ⟨-, hlog, -⟩ := check1_iff.mp h1
    exact hlog
  have htake : (copyWords sequence l).take 127 = copyBody sequence l := List.take_left' (copyBody_length sequence l)
  have hcrc : (copyWords sequence l).getD 127 0 = crc (copyBody sequence l) := by
    rw [List.getD_eq_getElem?_getD, copyWords, List.getElem?_append_right (by rw [copyBody_length]), copyBody_length,
      Nat.sub_self, List.getElem?_cons_zero, Option.getD_some]
  rw [readCopy, htake, hcrc, if_pos ⟨rfl, rfl⟩, readLayout_copyWords sequence l hl hlog]
  simp only [hv, Option.isNone_none, if_true]
  rfl

end Sys2Proof.Machine
end

section
/-! The end of a step with one claim or none, the beginning of LOAD, and the ticks (R37, R105, R107, R119, R120). -/

namespace Sys2Proof.Machine

/-! ### One claim standing -/

theorem claimants_nodup : claimants.Nodup := by decide

/-- One claim stands when one claimant alone is ready. -/
theorem standing_eq_singleton {s : State} {c : Claimant} (hc : s.Ready c) (honly : ∀ e, s.Ready e → e = c) :
    s.standing = [c] := by
  refine List.perm_singleton.mp ((List.perm_ext_iff_of_nodup (claimants_nodup.filter _) (List.nodup_singleton c)).mpr ?_)
  intro e
  change e ∈ s.standing ↔ e ∈ [c]
  rw [mem_standing_iff_ready, List.mem_singleton]
  exact ⟨honly e, fun h => h ▸ hc⟩

/-- A grant decision with one claim standing, at a completion or not (R107). -/
theorem arbitrate_eq_grant (b : Bool) {u : State} {c : Claimant} (ha : u.memPort.access = none) (hs : u.memPort.stopped = false)
    (hc : u.standing = [c]) : arbitrate b u = grant c u := by
  have hbest : bestClaim u = some c := by
    cases hb : bestClaim u with
    | none => rw [bestClaim_none u hb] at hc; cases hc
    | some e =>
      have he := bestClaim_mem u e hb
      rw [hc, List.mem_singleton] at he
      rw [he]
  have hlen : (!b && decide (2 ≤ u.standing.length)) = false := by simp [hc]
  unfold arbitrate
  rw [ha, hs, hlen, hbest]
  rfl

/-- The access of the only claimant that is ready begins. -/
theorem Granted.begun_only {u t : State} (hg : Granted u t) {c : Claimant} {a : Access} (ha : u.memPort.access = none)
    (hs : u.memPort.stopped = false) (hc : accessOf u c = some a) (honly : ∀ e, u.Ready e → e = c) :
    t.memPort.access = some a := by
  have hmem : c ∈ u.standing := (mem_standing u c).mpr (by rw [hc]; rfl)
  obtain ⟨e, he, hacc⟩ := hg.begun ha hs (List.ne_nil_of_mem hmem)
  rw [hacc, honly e ((mem_standing_iff_ready u e).mp he), hc]

/-- With the Memory Port stopped a step's end changes nothing. -/
theorem settleStep_stopped (b : Bool) {u : State} (hl : u.loadReady = false) (hs : u.memPort.stopped = true)
    (hw : u.NoCycleWaits) : settleStep b u = u := by
  have hstill : arbitrate b u = u := by
    unfold arbitrate
    rw [hs, Bool.or_true, if_pos rfl]
  unfold settleStep
  rw [loadBegin_eq u hl]
  dsimp only
  rw [hstill]
  split
  next hv hc => rw [hw hv] at hc; cases hc
  next => rfl

/-! ### The beginning of LOAD -/

/-- The state once LOAD has begun: the straps sampled, the port released, the first word of copy A being read (R103, R120). -/
def State.loading (u : State) : State := { u with
  loc := u.straps.loc
  mt := u.straps.mt
  recovery := { u.recovery with pos := .copies [] }
  memPort := { u.memPort with stopped := false, access := some (readOf .recovery (logStartOf u.straps.loc)) } }

theorem loadReady_iff (u : State) : u.loadReady = true ↔
    u.mode = .starting ∧ u.recovery.phase = .load ∧ u.recovery.pos = .idle ∧ u.resetAsserted = false
      ∧ u.memPort.access = none := by
  simp [State.loadReady, and_assoc]

/-- A claimant other than the recovery does not depend on the straps and the recovery record. -/
theorem ready_loadBegun {u : State} {l m : BitVec 2} {p : MemPort} {r : Recovery} {c : Claimant} (hc : c ≠ .recovery) :
    ({ u with loc := l, mt := m, memPort := p, recovery := r } : State).Ready c ↔ u.Ready c := by
  cases c with
  | recovery => exact absurd rfl hc
  | _ => exact Iff.rfl

/-- LOAD begins when it may, and with nothing else ready its first access does too (R105, R120). -/
theorem settleStep_loading (b : Bool) {u : State} (hl : u.loadReady = true) (hst : u.standing = []) (hw : u.NoCycleWaits) :
    settleStep b u = u.loading := by
  obtain ⟨hm, -, -, -, ha⟩ := (loadReady_iff u).mp hl
  have hbegun : loadBegin u = { u with
      loc := u.straps.loc, mt := u.straps.mt, memPort := { u.memPort with stopped := false },
      recovery := { u.recovery with pos := .copies [] } } := by
    rw [loadBegin, if_pos hl]
  have hready : (loadBegin u).Ready .recovery := by
    rw [hbegun]
    exact ⟨hm, RecPos.noConfusion, RecPos.noConfusion⟩
  have honly : ∀ e, (loadBegin u).Ready e → e = .recovery := by
    intro e he
    by_contra hne
    rw [hbegun, ready_loadBegun hne] at he
    exact (standing_eq_nil_iff u).mp hst e he
  have hgrant := arbitrate_eq_grant b (u := loadBegin u) (by rw [hbegun]; exact ha) (by rw [hbegun])
    (standing_eq_singleton hready honly)
  have hstate : grant .recovery (loadBegin u) = u.loading := by
    rw [hbegun, grant, accessOf, if_pos hm]
    rfl
  unfold settleStep
  dsimp only
  rw [hgrant, hstate]
  split
  next hv hc =>
    rw [show u.loading.port = u.port from rfl] at hv hc
    rw [hw hv] at hc
    cases hc
  next => rfl

/-! ### Ticks -/

/-- A tick's step. -/
theorem exec_tick {s : State} (hp : s.powered = true) : exec .tick s = .next (settleStep false (tickBody s)) := by
  have h : exec .tick s = answer (fun s => settleStep false (tickBody s)) s := rfl
  rw [h, answer, if_pos hp]

/-- SETTLE_END is the tick that ends SETTLE (log 4). -/
theorem exec_settleEnd {s : State} (hp : s.powered = true) (hin : s.inSettle = true) (hf : s.pfwAsserted = false)
    (h1 : s.recovery.settle = 1) : exec .settleEnd s = .next (settleStep false (tickBody s)) := by
  have h : exec .settleEnd s = answer (fun s =>
    if s.inSettle ∧ s.pfwAsserted = false ∧ s.recovery.settle = 1 then settleStep false (tickBody s) else s) s := rfl
  rw [h, answer, if_pos hp, if_pos ⟨hin, hf, h1⟩]

theorem inSettle_iff (s : State) : s.inSettle = true ↔ s.mode = .starting ∧ s.recovery.phase = .settle := by
  simp [State.inSettle]

/-- One millisecond off a running timer (R37). -/
def Runtime.ticked (r : Runtime) : Runtime := { r with timer := r.timer - 1 }

theorem tickDomain_eq {s : State} {d : Fin 4} (h : (s.dom d).state = .opened → (s.dom d).timer ≠ 1) :
    tickDomain d s = s.setDom d (s.dom d).ticked := by
  unfold tickDomain
  exact if_neg fun ⟨ht, ho⟩ => h ho ht

/-- The domains are ticked one after the other, ascending. -/
theorem tickDomains_eq_foldl (s : State) : tickDomains s = domainIndices.foldl (fun t d => tickDomain d t) s := by
  simp only [tickDomains, domainIndices, List.foldl_cons, List.foldl_nil]

theorem getElem_set_domain {v : Vector Runtime 4} {r : Runtime} {d e : Fin 4} :
    (v.set d r)[e] = if d = e then r else v[e] := by
  simp only [Fin.getElem_fin, Vector.getElem_set, Fin.ext_iff]

/-- The ticks of domains whose timers do not expire. -/
theorem foldl_tickDomain_quiet {s t : State} : ∀ (l : List (Fin 4)) (v : Vector Runtime 4), l.Nodup →
    (∀ e ∈ l, v[e] = s.dom e) → (∀ e ∈ l, (s.dom e).state = .opened → (s.dom e).timer ≠ 1) →
    l.foldl (fun t d => tickDomain d t) { t with domains := v } =
      { t with domains := l.foldl (fun (v : Vector Runtime 4) (e : Fin 4) => v.set e (s.dom e).ticked) v }
  | [], _, _, _, _ => rfl
  | e :: l, v, hnodup, hv, hquiet => by
    obtain ⟨he, hl⟩ := List.nodup_cons.mp hnodup
    have hve : v[e] = s.dom e := hv e List.mem_cons_self
    have htick : tickDomain e { t with domains := v } = { t with domains := v.set e (s.dom e).ticked } := by
      rw [tickDomain_eq (s := { t with domains := v }) (by rw [State.dom, hve]; exact hquiet e List.mem_cons_self), State.dom, hve]
      rfl
    rw [List.foldl_cons, htick, foldl_tickDomain_quiet l _ hl ?_ fun f hf => hquiet f (List.mem_cons_of_mem e hf)]
    · rfl
    · intro f hf
      rw [getElem_set_domain, if_neg (fun h : e = f => he (h ▸ hf))]
      exact hv f (List.mem_cons_of_mem e hf)

/-- With no timer to expire every running timer falls by one (R37). -/
theorem tickDomains_eq {s : State} (h : ∀ d, (s.dom d).state = .opened → (s.dom d).timer ≠ 1) :
    tickDomains s = { s with domains := s.domains.map Runtime.ticked } := by
  rw [tickDomains_eq_foldl]
  refine (foldl_tickDomain_quiet (s := s) (t := s) domainIndices s.domains (by decide) (fun _ _ => rfl) fun e _ => h e).trans ?_
  rw [foldl_set_eq mem_domainIndices _ (s.domains.map Runtime.ticked) fun e => by simp [State.dom]]

theorem tickBody_idle {s : State} (h : s.mode = .unconfigured ∨ s.mode = .bypass ∨ s.mode = .installing ∨ s.mode = .frozen) :
    tickBody s = s := by
  have hs : ¬ s.inSettle = true := by
    rw [inSettle_iff]
    rintro ⟨hm, -⟩
    rw [hm] at h
    obtain h | h | h | h := h <;> cases h
  have hg : ¬ s.mode = .guarding := by
    intro hm
    rw [hm] at h
    obtain h | h | h | h := h <;> cases h
  rw [tickBody, if_neg hs, if_neg hg]

/-- The second tick of SETTLE (R119). -/
theorem tickBody_settleEnds {s : State} (hin : s.inSettle = true) (hf : s.pfwAsserted = false) (h1 : s.recovery.settle = 1) :
    tickBody s = { s with recovery := { s.recovery with settle := 2, phase := .load } } := by
  rw [tickBody, if_pos hin, settleTick, if_neg (by rw [hf]; decide), h1]
  rfl

/-- Settles O36: the tick's body by mode and phase, then the end of the step. -/
theorem ticksRunTheTimersAndSettle : Obligations.TicksRunTheTimersAndSettle := by
  intro s hp hw
  refine ⟨fun hm hno => ?_, fun hm => ?_, fun hm hph => ⟨fun hf => ?_, fun hf h0 => ?_, fun hf h1 => ⟨fun hr => ?_,
    fun hr hpos ha hst => ?_⟩⟩⟩
  · have hns : ¬ s.inSettle = true := by rw [inSettle_iff, hm]; exact fun h => Mode.noConfusion h.1
    refine ⟨_, exec_tick hp, ?_⟩
    rw [tickBody, if_neg hns, if_pos hm, tickDomains_eq hno]
    exact settleStep_granted false _ (loadReady_of_mode _ (by rw [hm]; exact Mode.noConfusion)) hw
  · have hns : s.mode ≠ .starting := by
      intro h
      rw [h] at hm
      obtain hm | hm | hm | hm := hm <;> cases hm
    refine ⟨_, exec_tick hp, ?_⟩
    rw [tickBody_idle hm]
    exact settleStep_granted false s (loadReady_of_mode s hns) hw
  · refine ⟨_, exec_tick hp, ?_⟩
    rw [tickBody, if_pos ((inSettle_iff s).mpr ⟨hm, hph⟩), settleTick, if_pos hf]
    refine settleStep_granted false s ?_ hw
    rw [← Bool.not_eq_true, loadReady_iff, hph]
    exact fun h => Phase.noConfusion h.2.1
  · refine ⟨_, exec_tick hp, ?_⟩
    have hbody : tickBody s = { s with recovery := { s.recovery with settle := 1 } } := by
      rw [tickBody, if_pos ((inSettle_iff s).mpr ⟨hm, hph⟩), settleTick, if_neg (by rw [hf]; decide), h0, ← hph]
      rfl
    rw [hbody]
    refine settleStep_granted false _ ?_ hw
    rw [← Bool.not_eq_true, loadReady_iff]
    intro ⟨_, h, _⟩
    rw [show _ = Phase.load from h] at hph
    cases hph
  · have hin := (inSettle_iff s).mpr ⟨hm, hph⟩
    refine ⟨_, exec_settleEnd hp hin hf h1, exec_tick hp, ?_⟩
    rw [tickBody_settleEnds hin hf h1]
    refine settleStep_granted false _ ?_ hw
    rw [← Bool.not_eq_true, loadReady_iff]
    intro ⟨_, _, _, h, _⟩
    rw [hr] at h
    cases h
  · have hin := (inSettle_iff s).mpr ⟨hm, hph⟩
    have hready : ({ s with recovery := { s.recovery with settle := 2, phase := .load } } : State).loadReady = true :=
      (loadReady_iff _).mpr ⟨hm, rfl, hpos, hr, ha⟩
    have hidle : ({ s with recovery := { s.recovery with settle := 2, phase := .load } } : State).standing = [] := by
      rw [standing_eq_nil_iff]
      intro c hc
      refine (standing_eq_nil_iff s).mp hst c ?_
      cases c with
      | recovery => obtain ⟨h, h', h''⟩ := hc; exact ⟨h, h', h''⟩
      | _ => exact hc
    refine ⟨(exec_tick hp).trans (exec_settleEnd hp hin hf h1).symm, ?_⟩
    rw [exec_settleEnd hp hin hf h1, tickBody_settleEnds hin hf h1, settleStep_loading false hready hidle hw]
    rfl

end Sys2Proof.Machine
end

section
/-! Supervision: RESET#, PFW# and RESTART, and what they make of the Host Port and the access in progress (R70, R104, R128 to
R131, R153). -/

namespace Sys2Proof.Machine

/-! ### The Host Port and the access in progress at an entry (R70, R104) -/

theorem hostAtMemory_iff (s : State) : s.hostAtMemory = true ↔
    ∃ a, s.memPort.access = some a ∧ a.claimant = .host ∧ a.orphan = false := by
  unfold State.hostAtMemory
  cases s.memPort.access with
  | none => simp
  | some a => simp

/-- The Port at an entry into STARTING or FROZEN is the one of R70's table. -/
theorem stoppedPort_settled (s : State) : s.port.Settled s.memPort.access (stoppedPort s) where
  apart h := by
    unfold stoppedPort
    obtain h | h | h := h <;> rw [h]
  ended h := by
    unfold stoppedPort
    split
    next hs => rw [h] at hs; cases hs
    next => rfl
    next hne => exact absurd h hne
  notBegun h hno := by
    have hnot : ¬ s.hostAtMemory = true := by
      rw [hostAtMemory_iff]
      rintro ⟨a, ha, hc, ho⟩
      rw [hno a ha hc] at ho
      cases ho
    unfold stoppedPort
    rw [h]
    exact if_neg hnot
  begun a h ha hc ho := by
    unfold stoppedPort
    rw [h]
    exact if_pos ((hostAtMemory_iff s).mpr ⟨a, ha, hc, ho⟩)

theorem stoppedPort_noCycleWaits {s : State} (hw : s.NoCycleWaits) :
    (stoppedPort s).state = .vacant → (stoppedPort s).waiting = none := by
  intro hv
  obtain ⟨hs, he⟩ := stoppedPort_vacant hv
  rw [he]
  exact hw hs

theorem stoppedAccess_some {s : State} {a : Access} (ha : s.memPort.access = some a) :
    stoppedAccess s = some (if a.claimant = .host ∧ s.port.state = .atMemory then a else { a with orphan := true }) := by
  rw [stoppedAccess, ha, Option.map_some]

theorem stoppedAccess_none {s : State} (ha : s.memPort.access = none) : stoppedAccess s = none := by
  rw [stoppedAccess, ha, Option.map_none]

/-- The begun access as an entry into STARTING leaves it: only its orphan flag may be another. -/
theorem stoppedAccess_orphan {s : State} {a : Access} (ha : s.memPort.access = some a) :
    ∃ orphan, stoppedAccess s = some { a with orphan := orphan }
      ∧ (a.claimant = .host → s.port.state = .atMemory → orphan = a.orphan)
      ∧ (¬ (a.claimant = .host ∧ s.port.state = .atMemory) → orphan = true) := by
  rw [stoppedAccess_some ha]
  split
  next h => exact ⟨a.orphan, rfl, fun _ _ => rfl, fun hn => absurd h hn⟩
  next h => exact ⟨true, rfl, fun hc hp => absurd ⟨hc, hp⟩ h, fun _ => rfl⟩

/-- With no access in progress nothing is ready at an entry into STARTING (R105). -/
theorem enterStarting_standing {k : StartKind} {s : State} (ha : s.memPort.access = none) :
    (enterStarting k s).standing = [] := by
  rw [standing_eq_nil_iff]
  intro c hc
  have hdom : ∀ d, (enterStarting k s).dom d = .discarded := State.dom_replicate_discarded rfl
  cases c with
  | host =>
    have hnot : ¬ s.hostAtMemory = true := by
      rw [hostAtMemory_iff, ha]
      rintro ⟨a, h, -⟩
      cases h
    change (stoppedPort s).state = .atMemory ∨ ((stoppedPort s).state = .deciding
      ∧ ((stoppedPort s).stage = .store ∨ (stoppedPort s).stage = .commitStore)) at hc
    unfold stoppedPort at hc
    cases hs : s.port.state <;> simp [hs, hnot] at hc
  | restore d =>
    obtain ⟨st, i, hst, -⟩ := hc
    rw [hdom d] at hst
    cases hst
  | recovery => exact hc.2.1 rfl
  | install => obtain ⟨st, hst, -⟩ := hc; cases hst
  | copy | commit | retire => exact hc rfl

/-! ### The end of the step of an entry into STARTING -/

/-- An entry into STARTING begins LOAD at once, or leaves the Memory Port stopped (R105, R120). -/
theorem settleStep_enterStarting {k : StartKind} {s : State} (hw : s.NoCycleWaits) :
    (s.memPort.access = none ∧ s.resetAsserted = false
        ∧ settleStep false (enterStarting k s) = (enterStarting k s).loading)
      ∨ (¬ (s.memPort.access = none ∧ s.resetAsserted = false)
        ∧ settleStep false (enterStarting k s) = enterStarting k s) := by
  have hw' : (enterStarting k s).NoCycleWaits := stoppedPort_noCycleWaits hw
  by_cases h : s.memPort.access = none ∧ s.resetAsserted = false
  · obtain ⟨ha, hr⟩ := h
    exact .inl ⟨ha, hr, settleStep_loading false ((loadReady_iff _).mpr ⟨rfl, rfl, rfl, hr, stoppedAccess_none ha⟩)
      (enterStarting_standing ha) hw'⟩
  · refine .inr ⟨h, settleStep_stopped false ?_ rfl hw'⟩
    rw [← Bool.not_eq_true, loadReady_iff]
    rintro ⟨-, -, -, hr, ha⟩
    refine h ⟨?_, hr⟩
    cases hacc : s.memPort.access with
    | none => rfl
    | some a =>
      rw [show (enterStarting k s).memPort.access = stoppedAccess s from rfl, stoppedAccess_some hacc] at ha
      cases ha

/-- Settles O34: the entry keeps what RESTART keeps, and LOAD begins at once or not at all. -/
theorem restartKeepsTheManagementState : Obligations.RestartKeepsTheManagementState := by
  intro s tag hs hmode hw
  have hexec : exec (.restart tag) s = .next (settleStep false (enterStarting .restart
      { s.requested [0x3F, tag] with link := { (s.requested [0x3F, tag]).link with pendingOp := .restart tag } })) := by
    rw [exec_request (bytes := [0x3F, tag]) rfl hs]
    exact congrArg _ (unlessBusy_taken (s := s.requested [0x3F, tag]) (isBusy_eq_false hmode))
  refine ⟨_, hexec, ?_⟩
  have hport : s.port.Settled s.memPort.access (stoppedPort s) := stoppedPort_settled s
  obtain ⟨ha, hr, he⟩ | ⟨hnot, he⟩ := settleStep_enterStarting (k := .restart) (s := { s.requested [0x3F, tag] with
      link := { (s.requested [0x3F, tag]).link with pendingOp := .restart tag } }) hw
  · rw [he]
    refine ⟨rfl, rfl, rfl, rfl, rfl, rfl, rfl, rfl, rfl, hport, State.dom_replicate_discarded rfl, rfl, rfl, rfl, rfl, rfl, rfl,
      rfl, rfl, rfl, rfl, fun a hsome => ?_, fun _ _ => ⟨rfl, rfl, rfl⟩⟩
    rw [show s.memPort.access = none from ha] at hsome
    cases hsome
  · rw [he]
    refine ⟨rfl, rfl, rfl, rfl, rfl, rfl, rfl, rfl, rfl, hport, State.dom_replicate_discarded rfl, rfl, rfl, rfl, rfl, rfl, rfl,
      rfl, rfl, rfl, rfl, fun a hsome => ⟨?_, rfl⟩, fun ha hr => absurd ⟨ha, hr⟩ hnot⟩
    obtain ⟨orphan, h, -⟩ := stoppedAccess_orphan hsome
    exact ⟨orphan, h⟩

/-! ### The pins -/

theorem exec_resetAssert {s : State} (hp : s.powered = true) (straps : Straps) :
    exec (.resetAssert straps) s = .next (resetFalls (showStraps straps s)) := by
  have h : exec (.resetAssert straps) s = answer (fun s => resetFalls (showStraps straps s)) s := rfl
  rw [h, answer, if_pos hp]

theorem exec_resetRelease {s : State} (hp : s.powered = true) (straps : Straps) :
    exec (.resetRelease straps) s = .next (resetRises (showStraps straps s)) := by
  have h : exec (.resetRelease straps) s = answer (fun s => resetRises (showStraps straps s)) s := rfl
  rw [h, answer, if_pos hp]

theorem exec_pfwAssert {s : State} (hp : s.powered = true) (straps : Straps) :
    exec (.pfwAssert straps) s = .next (pfwFalls (showStraps straps s)) := by
  have h : exec (.pfwAssert straps) s = answer (fun s => pfwFalls (showStraps straps s)) s := rfl
  rw [h, answer, if_pos hp]

theorem exec_pfwRelease {s : State} (hp : s.powered = true) (straps : Straps) :
    exec (.pfwRelease straps) s = .next (pfwRises (showStraps straps s)) := by
  have h : exec (.pfwRelease straps) s = answer (fun s => pfwRises (showStraps straps s)) s := rfl
  rw [h, answer, if_pos hp]

/-- Settles O38: the three ways RESET# falls, and the entry's port and access. -/
theorem resetIsTaken : Obligations.ResetIsTaken := by
  intro s straps hp ha
  rw [exec_resetAssert hp]
  have hnot : ¬ (showStraps straps s).resetAsserted = true := by
    rw [show (showStraps straps s).resetAsserted = false from ha]
    decide
  refine ⟨fun hm => ?_, fun hm hph => ?_, fun hm hset => ?_⟩
  · rw [resetFalls, if_neg hnot]
    exact congrArg _ (if_pos hm)
  · have hf : ¬ (showStraps straps s).mode = .frozen := by
      rw [show (showStraps straps s).mode = .starting from hm]
      exact Mode.noConfusion
    rw [resetFalls, if_neg hnot]
    exact congrArg _ ((if_neg hf).trans (if_pos ((inSettle_iff _).mpr ⟨hm, hph⟩)))
  · have hin : ¬ (showStraps straps s).inSettle = true := fun h => hset ((inSettle_iff _).mp h)
    refine ⟨stoppedAccess s, stoppedPort s, ?_, stoppedPort_settled s, stoppedAccess_none, fun a hsome => stoppedAccess_orphan hsome⟩
    rw [resetFalls, if_neg hnot]
    exact congrArg _ ((if_neg (show ¬ (showStraps straps s).mode = .frozen from hm)).trans (if_neg hin))

end Sys2Proof.Machine
end

section
/-! Completions, and what begins and freezes the part: LOAD's beginning, PFW#, ABORT and the expiry of a timer (R38, R39, R103,
R104, R105, R130, R131). -/

namespace Sys2Proof.Machine

/-! ### Completions (R103, R104) -/

theorem answer_powered {f : State → State} {s : State} (hp : s.powered = true) : answer f s = .next (f s) := by
  rw [answer, if_pos hp]

theorem completeWhen_some {p : Access → Bool} {f : Option Word} {s : State} {a : Access} (ha : s.memPort.access = some a)
    (hpa : p a = true) : completeWhen p f s = completeAccess f a s := by
  unfold completeWhen
  rw [ha]
  exact if_pos hpa

theorem exec_memoryAccessComplete {s : State} {a : Access} (hp : s.powered = true) (ha : s.memPort.access = some a)
    (hc : a.claimant ≠ .host) (f : Option Word) : exec (.memoryAccessComplete f) s = .next (completeAccess f a s) := by
  have h : exec (.memoryAccessComplete f) s = answer (completeWhen (fun a => decide (a.claimant ≠ .host)) f) s := rfl
  rw [h, answer_powered hp, completeWhen_some ha (decide_eq_true hc)]

theorem exec_hostAccessComplete {s : State} {a : Access} (hp : s.powered = true) (ha : s.memPort.access = some a)
    (hc : a.claimant = .host) (f : Option Word) : exec (.hostAccessComplete f) s = .next (completeAccess f a s) := by
  have h : exec (.hostAccessComplete f) s = answer (completeWhen (fun a => decide (a.claimant = .host)) f) s := rfl
  rw [h, answer_powered hp, completeWhen_some ha (decide_eq_true hc)]

theorem finishAccess_eq (f : Option Word) (a : Access) (s : State) : finishAccess f a s = s.completed f a := by
  rw [finishAccess, memoryAfter_eq]
  rfl

theorem accessData_of_read {a : Access} (h : a.write = false) (f : Option Word) (s : State) :
    accessData f s.memory a = s.wordRead f a := by
  cases f <;> simp [accessData, State.wordRead, h]

/-- The completion of an access whose claimant has gone only finishes it (R104). -/
theorem completeAccess_orphan {a : Access} (ho : a.orphan = true) (f : Option Word) (s : State) :
    completeAccess f a s = settleStep true (s.completed f a) := by
  rw [completeAccess, handOver, if_pos ho, finishAccess_eq]

/-- The completion of a standing claimant's access hands the word on (R103). -/
theorem completeAccess_live {a : Access} {s : State} (ho : a.orphan = false) (hm : s.mode ≠ .frozen) (f : Option Word) :
    completeAccess f a s = settleStep true (deliver a.claimant (accessData f s.memory a) (s.completed f a)) := by
  have hf : ¬ (s.completed f a).mode = .frozen := hm
  rw [completeAccess, handOver, if_neg (by rw [ho]; decide), finishAccess_eq, if_neg hf]

theorem completed_ready {f : Option Word} {a : Access} {s : State} {c : Claimant} : (s.completed f a).Ready c ↔ s.Ready c := by
  cases c <;> exact Iff.rfl

theorem completed_standing {f : Option Word} {a : Access} {s : State} (h : s.standing = []) : (s.completed f a).standing = [] := by
  rw [standing_eq_nil_iff] at h ⊢
  exact fun c hc => h c (completed_ready.mp hc)

/-! ### LOAD's beginning -/

theorem loading_access (u : State) (l : Straps) (h : u.straps = l) : u.loading.memPort.access =
    some { claimant := .recovery, write := false, addr := BitVec.ofNat 19 (logStartOf l.loc),
           lanes := { low := true, high := true }, data := 0, orphan := false } := by
  subst h
  rfl

theorem resetRises_eq {s : State} (h : s.resetAsserted = true) :
    resetRises s = settleStep false { s with resetAsserted := false, resetTaken := false } := if_pos h

theorem pfwRises_warm {s : State} (hf : s.pfwAsserted = true) (hm : s.mode = .frozen) (hr : s.resetAsserted = false) :
    pfwRises s = settleStep false (enterStarting .warm { s with pfwAsserted := false }) := by
  rw [pfwRises, if_pos hf, hr]
  exact if_pos hm

theorem pfwRises_reset {s : State} (hf : s.pfwAsserted = true) (hm : s.mode = .frozen) (hr : s.resetAsserted = true) :
    pfwRises s = settleStep false (takeReset { s with pfwAsserted := false }) := by
  rw [pfwRises, if_pos hf, hr]
  exact if_pos hm

/-- Settles O39: in each case the state at the end of the step is one in which LOAD may begin, or must wait. -/
theorem loadBeginsWhenNothingHoldsIt : Obligations.LoadBeginsWhenNothingHoldsIt := by
  intro s straps hp hw
  dsimp only
  refine ⟨fun hr hm hph hpos ha hst => ?_, fun hf hm hr ha hport => ?_, fun hf hm hr => ?_,
    fun f a ha hc ho hm hph hpos hr hst => ?_⟩
  · have hready : ({ showStraps straps s with resetAsserted := false, resetTaken := false } : State).loadReady = true :=
      (loadReady_iff _).mpr ⟨hm, hph, hpos, rfl, ha⟩
    have hidle : ({ showStraps straps s with resetAsserted := false, resetTaken := false } : State).standing = [] := by
      rw [standing_eq_nil_iff] at hst ⊢
      exact fun c hc => hst c (by cases c <;> exact hc)
    refine ⟨({ showStraps straps s with resetAsserted := false, resetTaken := false } : State).loading,
      (exec_resetRelease hp straps).trans ?_, ⟨hm, hph, rfl, rfl, rfl, rfl, loading_access _ _ rfl⟩, ?_⟩
    · rw [resetRises_eq (s := showStraps straps s) hr, settleStep_loading false hready hidle hw]
    · rfl
  · obtain ⟨-, -, he⟩ | ⟨hnot, -⟩ := settleStep_enterStarting (k := .warm)
      (s := { showStraps straps s with pfwAsserted := false }) hw
    · refine ⟨(enterStarting .warm { showStraps straps s with pfwAsserted := false }).loading,
        (exec_pfwRelease hp straps).trans ?_, ⟨rfl, rfl, rfl, rfl, rfl, rfl, loading_access _ _ rfl⟩, rfl, rfl, rfl,
        ?_, rfl, rfl, rfl, rfl, rfl, State.dom_replicate_discarded rfl, rfl, rfl, rfl, rfl, rfl, rfl, rfl, rfl⟩
      · rw [pfwRises_warm (s := showStraps straps s) hf hm hr]
        exact congrArg _ he
      · exact (stoppedPort_settled s).apart hport
    · exact absurd ⟨ha, hr⟩ hnot
  · obtain ⟨-, h, -⟩ | ⟨-, he⟩ := settleStep_enterStarting (k := .reset)
      (s := resetClears { showStraps straps s with pfwAsserted := false, resetTaken := true }) hw
    · exact Bool.noConfusion (hr.symm.trans h)
    · refine ⟨takeReset { showStraps straps s with pfwAsserted := false }, (exec_pfwRelease hp straps).trans ?_, rfl, rfl, rfl, rfl, rfl, rfl, rfl, getLsbD_allOnes_maskBit, rfl,
        State.dom_replicate_discarded rfl, rfl⟩
      rw [pfwRises_reset (s := showStraps straps s) hf hm hr]
      exact congrArg _ he
  · have hready : (s.completed f a).loadReady = true := (loadReady_iff _).mpr ⟨hm, hph, hpos, hr, rfl⟩
    refine ⟨(s.completed f a).loading, (exec_memoryAccessComplete hp ha hc f).trans ?_, ⟨hm, hph, rfl, rfl, rfl, rfl, loading_access _ _ rfl⟩, ?_⟩
    · rw [completeAccess_orphan ho, settleStep_loading true hready (completed_standing hst) hw]
    · rfl

/-! ### FROZEN (R130) -/

theorem unlessFrozen_of_frozen {s u : State} (h : s.mode = .frozen) :
    unlessFrozen s u = s.setRecovery { s.recovery with pos := .idle } := if_pos h

/-- In FROZEN a slot worked off in RESTORE leaves its domain among the restored ones. -/
theorem nextRestore_restoredDomains {s : State} (h : s.mode = .frozen) :
    (nextRestore s).recovery.restoredDomains = s.recovery.restoredDomains := by
  unfold nextRestore
  split
  next => rw [unlessFrozen_of_frozen h]; rfl
  next => rfl

theorem restoreNext_tag_done {n : Nat} {verify back : Bool} {data : Word}
    (h : verify = false ∧ back = false ∨ verify = true ∧ back = true ∧ data = 0) :
    restoreNext n verify .tag back data = .slotDone := by
  obtain ⟨rfl, rfl⟩ | ⟨rfl, rfl, rfl⟩ := h <;> simp [restoreNext]

theorem restoreNext_tag_fails {n : Nat} {data : Word} (h : data ≠ 0) : restoreNext n true .tag true data = .tagFault := by
  simp only [restoreNext, Bool.not_true, Bool.false_and, Bool.true_and, decide_eq_true h]
  rfl

/-- A tag clear of RESTORE that finishes in FROZEN remembers its domain (R124, R133). -/
theorem recoveryTakes_restoredDomains {s : State} {it : RecItem} {back : Bool} {data : Word} (hm : s.mode = .frozen)
    (hpos : s.recovery.pos = .restore it .tag back)
    (h : (s.layout.verify = false ∧ back = false ∨ s.layout.verify = true ∧ back = true ∧ data = 0)
      ∨ s.layout.verify = true ∧ back = true ∧ data ≠ 0) :
    (recoveryTakes data s).recovery.restoredDomains = s.recovery.restoredDomains.set it.domain true := by
  unfold recoveryTakes
  rw [hpos]
  obtain h | ⟨hv, rfl, hne⟩ := h
  · have hout : recoveryRestoreTakes it .tag back data s = recoveryRestored it s := by
      unfold recoveryRestoreTakes
      rw [restoreNext_tag_done h]
    exact (congrArg (fun u : State => u.recovery.restoredDomains) hout).trans (nextRestore_restoredDomains (by exact hm))
  · have hout : recoveryRestoreTakes it .tag true data s = recoveryTagFault it s := by
      unfold recoveryRestoreTakes
      rw [hv, restoreNext_tag_fails hne]
    refine (congrArg (fun u : State => u.recovery.restoredDomains) hout).trans ?_
    unfold recoveryTagFault
    dsimp only
    rw [nextRestore_restoredDomains (by exact (record_frame (s.setRecovery _) _).mode.trans hm), (record_frame _ _).recovery]
    rfl

theorem wordDone_data {s : State} {verify back : Bool} {f : Option Word} {a : Access} {w : Word}
    (h : s.WordDone verify back f a w) :
    verify = false ∧ back = false ∨ verify = true ∧ back = true ∧ accessData f s.memory a = w := by
  obtain ⟨hv, hb, -⟩ | ⟨hv, hb, hr, hw⟩ := h
  · exact .inl ⟨hv, hb⟩
  · exact .inr ⟨hv, hb, (accessData_of_read hr f s).trans hw⟩

theorem wordFails_data {s : State} {verify back : Bool} {f : Option Word} {a : Access} {w : Word}
    (h : s.WordFails verify back f a w) : verify = true ∧ back = true ∧ accessData f s.memory a ≠ w := by
  obtain ⟨hv, hb, hr, hw⟩ := h
  exact ⟨hv, hb, fun he => hw ((accessData_of_read hr f s).symm.trans he)⟩

/-- Settles O40: FROZEN is entered with the Port of R70's table; in it a finished access reaches its claimant's record alone. -/
theorem powerFailFreezes : Obligations.PowerFailFreezes := by
  refine ⟨fun s straps hp hf => ⟨fun hm hph => ?_, fun hset => ?_⟩, fun s f a hp hm hstop hw ha hc => ?_⟩
  · rw [exec_pfwAssert hp, pfwFalls, if_neg (by rw [show (showStraps straps s).pfwAsserted = false from hf]; decide)]
    exact congrArg _ (if_pos ((inSettle_iff _).mpr ⟨hm, hph⟩))
  · refine ⟨stoppedPort s, ?_, stoppedPort_settled s⟩
    rw [exec_pfwAssert hp, pfwFalls, if_neg (by rw [show (showStraps straps s).pfwAsserted = false from hf]; decide)]
    exact congrArg _ (if_neg fun h => hset ((inSettle_iff _).mp h))
  · have still : ∀ {t : State}, t.mode = .frozen → t.memPort.stopped = true → t.port = s.port → settleStep true t = t := by
      intro t htm hts htp
      refine settleStep_stopped true (loadReady_of_mode t (by rw [htm]; exact Mode.noConfusion)) hts ?_
      unfold State.NoCycleWaits
      rw [htp]
      exact hw
    refine ⟨completeAccess f a s, exec_memoryAccessComplete hp ha hc f, ?_⟩
    by_cases ho : a.orphan = true
    · rw [completeAccess_orphan ho, still (t := s.completed f a) hm hstop rfl]
      exact ⟨rfl, fun _ => rfl, fun _ => rfl, fun _ _ _ h => by rw [ho] at h; cases h⟩
    · have hlive : completeAccess f a s = deliverFrozen a.claimant (accessData f s.memory a) (s.completed f a) := by
        have hf : (s.completed f a).mode = .frozen := hm
        have hhand : handOver a (accessData f s.memory a) (finishAccess f a s) =
            deliverFrozen a.claimant (accessData f s.memory a) (s.completed f a) := by
          rw [handOver, if_neg ho, finishAccess_eq, if_pos hf]
        rw [completeAccess, hhand]
        obtain ⟨hhost, -⟩ | ⟨k, h⟩ | ⟨k, h⟩ | ⟨d, st, h⟩ | ⟨i, h⟩ | ⟨b, h⟩ | ⟨-, r, h⟩ :=
          deliverFrozen_cases (s.completed f a) a.claimant (accessData f s.memory a) hf
        · exact absurd hhost hc
        all_goals rw [h]; exact still (by exact hm) (by exact hstop) (by rfl)
      rw [hlive]
      refine ⟨?_, ?_, fun h => absurd h ho, fun it back hrec _ hpos hword => ?_⟩
      · obtain ⟨hhost, -⟩ | ⟨k, h⟩ | ⟨k, h⟩ | ⟨d, st, h⟩ | ⟨i, h⟩ | ⟨b, h⟩ | ⟨-, r, h⟩ :=
          deliverFrozen_cases (s.completed f a) a.claimant (accessData f s.memory a) hm
        · exact absurd hhost hc
        case inr.inr.inr.inl => rw [h]; rfl
        all_goals rw [h]
      · intro d
        obtain ⟨hhost, -⟩ | ⟨k, h⟩ | ⟨k, h⟩ | ⟨e, st, h⟩ | ⟨i, h⟩ | ⟨b, h⟩ | ⟨-, r, h⟩ :=
          deliverFrozen_cases (s.completed f a) a.claimant (accessData f s.memory a) hm
        · exact absurd hhost hc
        case inr.inr.inr.inl =>
          rw [h, State.dom_setDom]
          split
          next he => subst he; rfl
          next => rfl
        all_goals rw [h]; rfl
      · rw [hrec]
        exact recoveryTakes_restoredDomains (s := s.completed f a) hm hpos
          (hword.imp wordDone_data fun h => wordFails_data h)

end Sys2Proof.Machine
end

section
/-! The aborts by request and by deadline (R33, R38, R39). -/

namespace Sys2Proof.Machine

theorem holdsWriteOf_of_notDeciding {s : State} (h : s.port.state ≠ .deciding) (d : Fin 4) : s.holdsWriteOf d = false := by
  unfold State.holdsWriteOf
  rw [decide_eq_false h]
  rfl

theorem holdsWriteOf_hit {s : State} {h : Hit} (hst : s.port.state = .deciding) (hd : s.port.disp = some .journal)
    (hc : s.port.cls = some (.hit h)) : s.holdsWriteOf h.domain = true := by
  simp [State.holdsWriteOf, hst, hd, hc]

/-- Settles O29: the refusals state by state; taken, the rollback's record, pool and stream of R33. -/
theorem abortIsSettledByTheDomainState : Obligations.AbortIsSettledByTheDomainState := by
  intro s tag b d hs hmode hb
  dsimp only
  have taken : ∀ (c : Byte) {u : State}, unlessUnguarded tag 0x20 (s.requested [0x20, tag, c]) u = u := by
    intro c u
    have hne : (s.requested [0x20, tag, c]).mode ≠ .unconfigured := by
      obtain hm | hm := hmode <;> exact fun h => by rw [show s.mode = _ from h] at hm; cases hm
    exact (unlessBusy_taken (s := s.requested [0x20, tag, c]) (isBusy_eq_false (.inr hmode))).trans (if_neg hne)
  have hbody : ∀ c u, execute [0x20, tag, c] u = reqAbort tag c u := fun _ _ => rfl
  have hdom : (s.requested [0x20, tag, b]).dom d = s.dom d := rfl
  refine ⟨fun hd => ?_, fun hd => ?_, fun hd => ?_, fun hd => ?_, fun b' hb' => ?_, fun hd hne hcopy hport hw => ?_⟩
  · refine exec_request_post rfl hs ?_
    rw [hbody, reqAbort, taken, domainOf_eq hb]
    obtain hd | hd | hd := hd <;> (simp only [hdom, hd]; rfl)
  · refine exec_request_post rfl hs ?_
    rw [hbody, reqAbort, taken, domainOf_eq hb]
    simp only [hdom, hd]
    rfl
  · refine exec_request_post rfl hs ?_
    rw [hbody, reqAbort, taken, domainOf_eq hb]
    simp only [hdom, hd]
    rfl
  · refine exec_request_post rfl hs ?_
    rw [hbody, reqAbort, taken, domainOf_eq hb]
    simp only [hdom, hd]
    rfl
  · refine exec_request_post rfl hs ?_
    rw [hbody, reqAbort, taken, domainOf_none hb']
    rfl
  · refine ⟨_, exec_request (bytes := [0x20, tag, b]) rfl hs, ?_⟩
    rw [hbody, reqAbort, taken, domainOf_eq hb]
    simp only [hdom, hd]
    rw [abortUpdate_begins (post tag 0x20 .ok _ (s.requested [0x20, tag, b])) d .requested hne hcopy
      (holdsWriteOf_of_notDeciding hport d), show (s.dom d).openEpoch = (s.dom d).committed + 1 from rfl, bytes2_word]
    refine settleStep_granted false _ (loadReady_of_mode _ ?_) hw
    change s.mode ≠ .starting
    obtain hm | hm := hmode <;> rw [hm] <;> exact Mode.noConfusion

/-! ### A timer expires -/

/-- The ticks of domains of which one expires: the others' timers fall by one, and the expiring domain's record and the rest of
the state are what its abort makes of them (R38). -/
theorem foldl_tickDomain_expiry {s u : State} {d : Fin 4} {r : Runtime}
    (hother : ∀ e, e ≠ d → (s.dom e).state = .opened → (s.dom e).timer ≠ 1)
    (habort : ∀ v : Vector Runtime 4, v[d] = s.dom d → tickDomain d { s with domains := v } = { u with domains := v.set d r }) :
    ∀ (l : List (Fin 4)) (v : Vector Runtime 4), l.Nodup → d ∈ l → (∀ e ∈ l, v[e] = s.dom e) →
      l.foldl (fun t e => tickDomain e t) { s with domains := v } =
        { u with domains := l.foldl (fun (v : Vector Runtime 4) (e : Fin 4) => v.set e (if e = d then r else (s.dom e).ticked)) v }
  | [], _, _, hd, _ => (List.not_mem_nil hd).elim
  | e :: l, v, hnodup, hd, hv => by
    obtain ⟨he, hl⟩ := List.nodup_cons.mp hnodup
    have hrest : ∀ (x : Runtime) (f : Fin 4), f ∈ l → (v.set e x)[f] = s.dom f := by
      intro x f hf
      rw [getElem_set_domain, if_neg (fun h : e = f => he (h ▸ hf))]
      exact hv f (List.mem_cons_of_mem e hf)
    rw [List.foldl_cons, List.foldl_cons]
    by_cases hed : e = d
    · subst hed
      rw [habort v (hv e List.mem_cons_self), if_pos rfl, foldl_tickDomain_quiet (s := s) l _ hl (hrest r) fun f hf =>
        hother f fun h => he (h ▸ hf)]
      refine congrArg (fun w => ({ u with domains := w } : State)) (List.foldl_ext _ _ _ fun w f hf => ?_)
      rw [if_neg (fun h : f = e => he (h ▸ hf))]
    · have htick := foldl_tickDomain_quiet (s := s) (t := s) [e] v (List.nodup_singleton e)
        (fun f hf => hv f (List.mem_singleton.mp hf ▸ List.mem_cons_self))
        (fun f hf => hother f (List.mem_singleton.mp hf ▸ hed))
      rw [if_neg hed]
      refine (congrArg (fun t => l.foldl (fun t e => tickDomain e t) t) htick).trans ?_
      exact foldl_tickDomain_expiry hother habort l _ hl
        ((List.mem_cons.mp hd).resolve_left fun h => hed h.symm) (hrest _)

/-- A tick with one timer to expire. -/
theorem tickDomains_expiry {s u : State} {d : Fin 4} {r : Runtime}
    (hother : ∀ e, e ≠ d → (s.dom e).state = .opened → (s.dom e).timer ≠ 1)
    (habort : ∀ v : Vector Runtime 4, v[d] = s.dom d → tickDomain d { s with domains := v } = { u with domains := v.set d r }) :
    tickDomains s = { u with domains := (s.domains.map Runtime.ticked).set d r } := by
  rw [tickDomains_eq_foldl]
  refine (foldl_tickDomain_expiry hother habort domainIndices s.domains (by decide) (mem_domainIndices d) fun _ _ => rfl).trans ?_
  rw [foldl_set_eq mem_domainIndices _ ((s.domains.map Runtime.ticked).set d r) fun e => ?_]
  rw [getElem_set_domain]
  by_cases he : e = d
  · rw [if_pos he, if_pos he.symm]
  · rw [if_neg he, if_neg fun h => he h.symm]
    simp [State.dom]

/-- DEADLINE_EXPIRY is the tick that brings the timer to zero (log 4). -/
theorem exec_deadlineExpiry {s : State} {d : Fin 4} (hp : s.powered = true) (hm : s.mode = .guarding)
    (ht : (s.dom d).timer = 1) : exec (.deadlineExpiry d) s = .next (settleStep false (tickBody s)) := by
  have h : exec (.deadlineExpiry d) s = answer (fun s =>
    if s.mode = .guarding ∧ (s.dom d).timer = 1 then settleStep false (tickBody s) else s) s := rfl
  rw [h, answer_powered hp, if_pos ⟨hm, ht⟩]

theorem HostPort.ended_waiting {p : HostPort} (d : Disposition) (h : p.NoneFollows) :
    (p.ended d).state = .vacant → (p.ended d).waiting = none := by
  unfold HostPort.ended
  cases he : p.early with
  | true => exact fun _ => h he
  | false => intro hv; cases hv

theorem blockedEvent_hit {r : Reason} {c : BusCycle} {h : Hit} (hk : h.kind ≠ .fixed) :
    blockedEvent r c (some (.hit h)) = .writeBlocked r c.addr (some h.region) (some h.domain) 1 := by
  simp [blockedEvent, hk]

/-- An abort that drops the domain's waiting write first, and begins the rollback with the newest member (R33, R34). -/
theorem abort_waitingWrite {s : State} {d : Fin 4} {c : Cause} (hne : (s.dom d).members ≠ [])
    (hc : ∀ i ∈ (s.dom d).members, (s.slot i).state ≠ .copying) (hh : s.holdsWriteOf d = true)
    (hs : s.port.stage = .none ∨ s.port.stage = .slot ∨ s.port.stage = .backlog) :
    abortUpdate d c s =
      { s with
        domains := s.domains.set d ((s.dom d).rolledBack c)
        pool := movedPool .active .restoring (s.dom d).members s.pool
        port := s.port.ended (.drop .dropped)
        memPort := { s.memPort with boost := false }
        events := (record (blockedEvent .dropped s.port.cycle s.port.cls) s).events } := by
  rw [abortUpdate_drops s d c hh hs, dropWrite_eq]
  exact rollback_begins _ d c hne hc

/-- Settles O37: the tick's abort, with and without a write of the domain to drop. -/
theorem deadlineExpiryAborts : Obligations.DeadlineExpiryAborts := by
  intro s d hp hm hw ht ho hne hcopy hother
  dsimp only
  have hbody : tickBody s = tickDomains s := by
    have hns : ¬ s.inSettle = true := by rw [inSettle_iff, hm]; exact fun h => Mode.noConfusion h.1
    rw [tickBody, if_neg hns, if_pos hm]
  have hexpires : ∀ v : Vector Runtime 4, v[d] = s.dom d → tickDomain d { s with domains := v } =
      abortUpdate d .deadline { s with domains := v.set d (s.dom d).ticked } := by
    intro v hv
    have hdom : ({ s with domains := v } : State).dom d = s.dom d := hv
    unfold tickDomain
    rw [hdom, if_pos ⟨ht, ho⟩]
    rfl
  have hset : ∀ (v : Vector Runtime 4), ({ s with domains := v.set d (s.dom d).ticked } : State).dom d = (s.dom d).ticked := by
    intro v
    simp [State.dom]
  have hmode : s.mode ≠ .starting := by rw [hm]; exact Mode.noConfusion
  refine ⟨fun hport => ⟨_, exec_deadlineExpiry hp hm ht, exec_tick hp, ?_⟩,
    fun h hport hdisp hcls hhd hk hstage hfollows => ⟨_, exec_deadlineExpiry hp hm ht, exec_tick hp, ?_⟩⟩
  · rw [hbody, tickDomains_expiry (u := { s with pool := movedPool .active .restoring (s.dom d).members s.pool })
      (r := (s.dom d).rolledBack .deadline) hother ?_]
    · exact settleStep_granted false _ (loadReady_of_mode _ hmode) hw
    · intro v hv
      rw [hexpires v hv, abortUpdate_begins { s with domains := v.set d (s.dom d).ticked } d .deadline
        (by rw [hset]; exact hne) (by rw [hset]; exact hcopy) (holdsWriteOf_of_notDeciding (by exact hport) d), hset,
        Vector.set_set]
      rfl
  · have hevent : blockedEvent .dropped s.port.cycle s.port.cls =
        .writeBlocked .dropped s.port.cycle.addr (some h.region) (some d) 1 := by
      rw [hcls, blockedEvent_hit hk, hhd]
    rw [hbody, tickDomains_expiry (u := { s with
        pool := movedPool .active .restoring (s.dom d).members s.pool
        port := s.port.ended (.drop .dropped)
        memPort := { s.memPort with boost := false }
        events := (record (.writeBlocked .dropped s.port.cycle.addr (some h.region) (some d) 1) s).events })
      (r := (s.dom d).rolledBack .deadline) hother ?_]
    · exact settleStep_granted false _ (loadReady_of_mode _ hmode) (HostPort.ended_waiting _ hfollows)
    · intro v hv
      rw [hexpires v hv]
      rw [abort_waitingWrite (s := { s with domains := v.set d (s.dom d).ticked }) (by rw [hset]; exact hne)
        (by rw [hset]; exact hcopy) (hhd ▸ holdsWriteOf_hit hport hdisp hcls) (.inr hstage),
        hset, Vector.set_set, hevent, record_events_congr (u := { s with domains := v.set d (s.dom d).ticked }) (v := s) _ rfl rfl]
      rfl

end Sys2Proof.Machine
end
section
/-! Cycles on the host bus: how one is taken, read or written, and how its end frees the Port (R63 to R84). -/

namespace Sys2Proof.Machine

/-! ### The arrival of a cycle -/

/-- A claim that alone has become ready since a step that left none standing is granted. -/
theorem Granted.begins {s u t : State} (hg : Granted u t) {c : Claimant} {a : Access} (hs : s.Settled)
    (ha : s.memPort.access = none) (hst : s.memPort.stopped = false) (hua : u.memPort.access = s.memPort.access)
    (hus : u.memPort.stopped = s.memPort.stopped) (hrest : ∀ e, e ≠ c → u.Ready e → s.Ready e) (hc : accessOf u c = some a) :
    t.memPort.access = some a := by
  refine hg.begun_only (c := c) (hua.trans ha) (hus.trans hst) hc fun e he => ?_
  by_contra hne
  exact (standing_eq_nil_iff s).mp (hs ha hst) e (hrest e hne he)

/-- The claims of the streams do not depend on the Port. -/
theorem ready_of_port {s : State} {p : HostPort} {e : Claimant} (he : e ≠ .host) (h : ({ s with port := p } : State).Ready e) :
    s.Ready e := by
  cases e with
  | host => exact absurd rfl he
  | _ => exact h

theorem Granted.port {u t : State} (hg : Granted u t) : t.port = u.port := by
  rw [hg.only]

theorem State.waitAsserted_congr {s t : State} (h : t.port = s.port) : t.waitAsserted = s.waitAsserted := by
  rw [State.waitAsserted, State.waitAsserted, h]

/-- A cycle that reaches a vacant Port arrives there. -/
theorem exec_hostRead_vacant {s : State} {addr : Addr} {lanes : Lanes} {alt : Bool} (hp : s.powered = true)
    (hv : s.port.state = .vacant) :
    exec (.hostRead addr lanes alt) s = .next (settleStep false (arrive (readCycle addr lanes alt) s)) := by
  have h : exec (.hostRead addr lanes alt) s = answer (busCycle (readCycle addr lanes alt)) s := rfl
  rw [h, answer_powered hp, busCycle, if_pos hv]

theorem exec_hostWrite_vacant {s : State} {addr : Addr} {lanes : Lanes} {alt : Bool} {data : Word} (hp : s.powered = true)
    (hv : s.port.state = .vacant) :
    exec (.hostWrite addr lanes alt data) s = .next (settleStep false (arrive (writeCycle addr lanes alt data) s)) := by
  have h : exec (.hostWrite addr lanes alt data) s = answer (busCycle (writeCycle addr lanes alt data)) s := rfl
  rw [h, answer_powered hp, busCycle, if_pos hv]

/-- A command whose effect ends a step outside LOAD's beginning, no cycle waiting, is that effect and a grant decision. -/
theorem exec_granted {c : Instr} {s u : State} {b : Bool} (h : exec c s = .next (settleStep b u)) (hl : u.loadReady = false)
    (hw : u.NoCycleWaits) : ∃ t, exec c s = .next t ∧ t.waitAsserted = u.waitAsserted ∧ Granted u t :=
  have hg := settleStep_granted b u hl hw
  ⟨_, h, State.waitAsserted_congr hg.port, hg⟩

/-- The Port's cycle has been latched and classified, its disposal still open (R63, R64). -/
def State.taken (c : BusCycle) (s : State) : State :=
  { s with port := .latched .held c (some (classify s c.addr)) none .none }

theorem arrive_held {c : BusCycle} {s : State} (h : s.mode.holds c.write = true) :
    arrive c s = { s with port := .latched .held c none none .none } := by
  unfold arrive
  exact if_pos h

theorem arrive_read {c : BusCycle} {s : State} (h : s.mode.holds c.write = false) (hr : c.write = false) :
    arrive c s = { s with
      port := .latched .atMemory c (some (classify s c.addr)) (some (readDisposition s c.alt (classify s c.addr))) .none } := by
  unfold arrive
  refine (if_neg (by rw [h]; decide)).trans ?_
  unfold takeAccess
  exact if_neg (by rw [hr]; decide)

theorem arrive_write {c : BusCycle} {s : State} (h : s.mode.holds c.write = false) (hw : c.write = true)
    (hl : c.lanes.low = true ∨ c.lanes.high = true) : arrive c s = takeWrite (classify s c.addr) (s.taken c) := by
  have hlanes : noLanes c.lanes = false := by
    unfold noLanes
    obtain hl | hl := hl <;> simp [hl]
  unfold arrive
  refine (if_neg (by rw [h]; decide)).trans ?_
  unfold takeAccess
  refine (if_pos hw).trans ?_
  exact if_neg (by rw [hlanes]; decide)

theorem arrive_noLanes {c : BusCycle} {s : State} (h : s.mode.holds c.write = false) (hw : c.write = true)
    (hl : c.lanes.low = false) (hh : c.lanes.high = false) :
    arrive c s = { s with port := .latched .closing c (some (classify s c.addr)) (some .noEffect) .none } := by
  have hlanes : noLanes c.lanes = true := by
    unfold noLanes
    simp [hl, hh]
  unfold arrive
  refine (if_neg (by rw [h]; decide)).trans ?_
  unfold takeAccess
  refine (if_pos hw).trans ?_
  exact if_pos hlanes

theorem holds_read {m : Mode} (h1 : m ≠ .starting) (h2 : m ≠ .frozen) : m.holds false = false := by
  cases m with
  | starting => exact absurd rfl h1
  | frozen => exact absurd rfl h2
  | _ => rfl

theorem holds_write {m : Mode} (h : m = .unconfigured ∨ m = .guarding ∨ m = .bypass) : m.holds true = false := by
  obtain rfl | rfl | rfl := h <;> rfl

theorem ne_starting_of_takes {m : Mode} {w : Bool} (h : m.holds w = false) : m ≠ .starting := by
  rintro rfl
  cases h

/-! ### Reads (R71 to R73) -/

/-- A read goes to the memory with its disposition, at the address this gives. -/
theorem hostRead_atMemory {s : State} {addr : Addr} {lanes : Lanes} {alt : Bool} {d : Disposition} {a : Addr} (ho : s.PortOpen)
    (hh : s.mode.holds false = false) (hd : readDisposition s alt (classify s addr) = d)
    (ha : (match (some d : Option Disposition) with | some (.redirect _ image) => image | _ => addr) = a) :
    ∃ t, exec (.hostRead addr lanes alt) s = .next t ∧ t.waitAsserted = true
      ∧ Granted { s with port := .latched .atMemory (readCycle addr lanes alt) (some (classify s addr)) (some d) .none } t
      ∧ (s.Settled → s.memPort.access = none → s.memPort.stopped = false → t.memPort.access = some (hostReadAt a)) := by
  obtain ⟨hp, hv⟩ := ho
  have hexec := exec_hostRead_vacant (addr := addr) (lanes := lanes) (alt := alt) hp hv
  rw [arrive_read hh rfl] at hexec
  obtain ⟨t, ht, hwait, hg⟩ := exec_granted hexec (loadReady_of_mode _ (ne_starting_of_takes hh)) (by intro h; cases h)
  subst hd
  refine ⟨t, ht, hwait, hg, fun hs hacc hst => ?_⟩
  refine hg.begins (c := .host) hs hacc hst rfl rfl (fun e he h => ready_of_port he h) ?_
  subst ha
  rfl

/-- The states of a slot in which it redirects a master's reads (R72, R73). -/
def SlotState.redirects (alt : Bool) : SlotState → Bool
  | .active => alt
  | .restoring => true
  | .stranded => true
  | .copying => false
  | .retiring => false
  | .free => false
  | .bad => false

theorem readDisposition_indexed {s : State} {alt : Bool} {h : Hit} {i : Nat} (hm : s.mode = .guarding) (hk : h.kind ≠ .fixed)
    (hi : s.indexed h.region h.record = some i) :
    readDisposition s alt (.hit h) =
      if (s.slot i).state.redirects alt then .redirect i (s.slotAddr i (4 + h.offset)) else .pass := by
  unfold readDisposition
  rw [hm]
  dsimp only
  rw [if_neg hk, hi]
  dsimp only
  cases (s.slot i).state <;> rfl

/-- Settles O41: the disposition by mode, classification and slot state, then the access at the address it gives. -/
theorem readsPassOrAreRedirected : Obligations.ReadsPassOrAreRedirected := by
  intro s addr lanes alt ho hm1 hm2
  have hh := holds_read hm1 hm2
  dsimp only
  have pass : readDisposition s alt (classify s addr) = .pass → _ := fun h =>
    hostRead_atMemory (lanes := lanes) ho hh h (a := addr) rfl
  refine ⟨fun hm => pass ?_, fun hm hc => pass ?_, fun h hm hc => ⟨fun hp => pass ?_, fun i hk hi => ?_⟩⟩
  · unfold readDisposition
    split
    next hg _ => exact absurd hg hm
    next => rfl
  · unfold readDisposition
    obtain hc | hc := hc <;> rw [hm, hc]
  · unfold readDisposition
    rw [hm, hc]
    dsimp only
    obtain hk | hi := hp
    · exact if_pos hk
    · rw [hi, ite_self]
  · have redirect : readDisposition s alt (classify s addr) = .redirect i (s.slotAddr i (4 + h.offset)) → _ := fun h =>
      hostRead_atMemory (lanes := lanes) ho hh h (a := _) rfl
    refine ⟨fun hst => redirect ?_, fun hst => ?_, fun hst => pass ?_⟩
    · rw [hc, readDisposition_indexed hm hk hi]
      obtain hst | hst := hst <;> rw [hst] <;> exact if_pos rfl
    · have hdisp := (congrArg (readDisposition s alt) hc).trans (readDisposition_indexed hm hk hi)
      rw [hst] at hdisp
      cases alt with
      | true => exact redirect (hdisp.trans (if_pos rfl))
      | false => exact pass (hdisp.trans (if_neg Bool.false_ne_true))
    · rw [hc, readDisposition_indexed hm hk hi]
      obtain hst | hst | hst | hst := hst <;> rw [hst] <;> exact if_neg Bool.false_ne_true

/-! ### Writes that pass (R76, R77, R84) -/

/-- Settles O42: no lane, no effect; else the write passes in each of the three modes. -/
theorem writesPassWithoutJournalWork : Obligations.WritesPassWithoutJournalWork := by
  intro s addr lanes alt data ho
  obtain ⟨hp, hv⟩ := ho
  have hexec := exec_hostWrite_vacant (addr := addr) (lanes := lanes) (alt := alt) (data := data) hp hv
  refine ⟨fun hm hl hh => ?_, fun hl hm => ?_⟩
  · have hhold := holds_write hm
    rw [arrive_noLanes (c := writeCycle addr lanes alt data) hhold rfl hl hh] at hexec
    exact exec_granted hexec (loadReady_of_mode _ (ne_starting_of_takes hhold)) (by intro h; cases h)
  · have hhold : s.mode.holds true = false := holds_write (by
      obtain hm | ⟨hm, -⟩ | ⟨hm, -⟩ := hm
      · exact .inl hm
      · exact .inr (.inr hm)
      · exact .inr (.inl hm))
    have hpass : takeWrite (classify s addr) (s.taken (writeCycle addr lanes alt data)) =
        passAccess .pass (s.taken (writeCycle addr lanes alt data)) := by
      have hmode : (s.taken (writeCycle addr lanes alt data)).mode = s.mode := rfl
      unfold takeWrite
      rw [hmode]
      obtain hm | ⟨hm, hc⟩ | ⟨hm, hc⟩ := hm
      · rw [hm]
      · rw [hm]
        dsimp only
        split
        next h => exact absurd h hc
        next => rfl
      · rw [hm, hc]
    rw [arrive_write (c := writeCycle addr lanes alt data) hhold rfl hl] at hexec
    rw [show (writeCycle addr lanes alt data).addr = addr from rfl, hpass] at hexec
    obtain ⟨t, ht, hwait, hg⟩ := exec_granted hexec (loadReady_of_mode _ (ne_starting_of_takes hhold)) (by intro h; cases h)
    exact ⟨t, ht, hwait, hg, fun hs hacc hst =>
      hg.begins (c := .host) hs hacc hst rfl rfl (fun e he h => ready_of_port he h) rfl⟩

end Sys2Proof.Machine
end

section
/-! Held cycles, the end of a cycle, and the writes that end at once, STRAY among them (R64, R65, R68, R69, R77 to R82). -/

namespace Sys2Proof.Machine

/-! ### Held cycles and the end of a cycle -/

/-- Settles O48: the latched cycle at a vacant Port, the waiting cycle at one that is not. -/
theorem modesHoldArrivingCycles : Obligations.ModesHoldArrivingCycles := by
  intro s addr lanes alt data hp
  refine ⟨fun hv hl => ⟨fun hm => ?_, fun hm => ?_⟩, fun hv => ⟨?_, ?_⟩⟩
  · have hh : s.mode.holds false = true := by obtain hm | hm := hm <;> rw [hm] <;> rfl
    have hexec := exec_hostRead_vacant (addr := addr) (lanes := lanes) (alt := alt) hp hv
    rw [arrive_held (c := readCycle addr lanes alt) hh] at hexec
    exact exec_granted hexec hl (by intro h; cases h)
  · have hh : s.mode.holds true = true := by obtain hm | hm | hm := hm <;> rw [hm] <;> rfl
    have hexec := exec_hostWrite_vacant (addr := addr) (lanes := lanes) (alt := alt) (data := data) hp hv
    rw [arrive_held (c := writeCycle addr lanes alt data) hh] at hexec
    exact exec_granted hexec hl (by intro h; cases h)
  · have h : exec (.hostRead addr lanes alt) s = answer (busCycle (readCycle addr lanes alt)) s := rfl
    rw [h, answer_powered hp, busCycle, if_neg hv]
    rfl
  · have h : exec (.hostWrite addr lanes alt data) s = answer (busCycle (writeCycle addr lanes alt data)) s := rfl
    rw [h, answer_powered hp, busCycle, if_neg hv]
    rfl

/-- A grant decision with nothing to grant changes nothing. -/
theorem arbitrate_of_settled (b : Bool) {u : State} (h : u.Settled) : arbitrate b u = u := by
  by_cases ha : u.memPort.access = none
  · cases hs : u.memPort.stopped with
    | true =>
      unfold arbitrate
      rw [hs, Bool.or_true, if_pos rfl]
    | false =>
      have hnil := h ha hs
      have hbest : bestClaim u = none := by
        cases hb : bestClaim u with
        | none => rfl
        | some e => exact absurd (hnil ▸ bestClaim_mem u e hb) List.not_mem_nil
      unfold arbitrate
      rw [ha, hs, hnil, hbest]
      cases b <;> rfl
  · unfold arbitrate
    exact if_pos (by rw [Option.isSome_iff_ne_none.mpr ha]; rfl)

/-- A cycle that waits arrives when the Port has become vacant (R65). -/
theorem settleStep_arrives (b : Bool) {u : State} {c : BusCycle} (hl : u.loadReady = false) (hs : u.Settled)
    (hv : u.port.state = .vacant) (hc : u.port.waiting = some c) : settleStep b u = arbitrate false (arrive c u) := by
  unfold settleStep
  rw [loadBegin_eq u hl]
  dsimp only
  rw [arbitrate_of_settled b hs, hv, hc]

/-- Closing or discarding an access makes no claim. -/
theorem vacate_settled {s : State} (h : s.Settled) : (vacate s).Settled := by
  intro ha hst
  refine (standing_eq_nil_iff _).mpr fun e he => (standing_eq_nil_iff s).mp (h ha hst) e ?_
  cases e with
  | host =>
    obtain h | ⟨h, -⟩ := he <;> cases h
  | _ => exact he

theorem endCycle_vacates {s : State} (h : s.port.state = .closing ∨ (s.port.state = .held ∧ s.port.early = false)) :
    endCycle s = settleStep false (vacate s) := by
  unfold endCycle
  obtain h | ⟨h, he⟩ := h
  · rw [h]
  · rw [h]
    dsimp only
    rw [if_neg (by rw [he]; decide)]

/-- Settles O49: the Port's states one by one, the waiting cycle held or passed by the mode. -/
theorem cycleEndFreesThePort : Obligations.CycleEndFreesThePort := by
  intro s hp
  have hexec : exec .hostCycleEnd s = .next (endCycle s) := by
    have h : exec .hostCycleEnd s = answer endCycle s := rfl
    rw [h, answer_powered hp]
  refine ⟨fun hst hl => ⟨fun hw => ?_, fun hset c hc => ?_⟩, fun hst he => ?_, fun hst he => ?_, fun hst => ?_⟩
  · rw [endCycle_vacates hst] at hexec
    obtain ⟨t, ht, hwait, hg⟩ := exec_granted hexec hl (fun _ => hw)
    refine ⟨t, ht, ?_, hg⟩
    have hv : (vacate s).waitAsserted = s.port.waiting.isSome := rfl
    rw [hwait, hv, hw]
    rfl
  · have harr : exec .hostCycleEnd s = .next (arbitrate false (arrive c (vacate s))) := by
      rw [hexec, endCycle_vacates hst, settleStep_arrives (u := vacate s) false hl (vacate_settled hset) rfl hc]
    refine ⟨fun hh => ⟨_, harr, ?_⟩, fun hm1 hm2 hr hcls => ⟨_, harr, ?_⟩⟩
    · have h := arbitrate_granted false (arrive c (vacate s))
      rw [arrive_held (s := vacate s) hh] at h ⊢
      exact h
    · have hd : readDisposition s c.alt .uncovered = .pass := by
        unfold readDisposition
        cases s.mode <;> rfl
      have harrive : arrive c (vacate s) =
          { s with port := .latched .atMemory c (some .uncovered) (some .pass) .none } := by
        rw [arrive_read (s := vacate s) (by rw [hr]; exact holds_read hm1 hm2) hr,
          show classify (vacate s) c.addr = classify s c.addr from rfl, hcls,
          show readDisposition (vacate s) c.alt .uncovered = readDisposition s c.alt .uncovered from rfl, hd]
        rfl
      rw [harrive]
      exact arbitrate_granted false _
  · rw [hexec]
    unfold endCycle
    obtain hst | hst := hst <;> rw [hst] <;> dsimp only <;> rw [if_neg (by rw [he]; decide)]
  · rw [hexec]
    unfold endCycle
    obtain hst | hst | hst := hst <;> rw [hst] <;> dsimp only <;> rw [if_pos he] <;> rfl
  · rw [hexec]
    unfold endCycle
    rw [hst]

/-! ### Blocked and dropped writes (R77, R78, R80) -/

theorem strayDomain_quiet {s : State} {d : Fin 4} (h : ¬ ((s.cfg d).strict = true ∧ (s.dom d).state = .opened)) :
    strayDomain d s = s := by
  unfold strayDomain
  exact if_neg h

/-- STRAY strikes nothing where no strict domain is OPEN. -/
theorem stray_quiet {s : State} (h : ∀ d, ¬ ((s.cfg d).strict = true ∧ (s.dom d).state = .opened)) : stray s = s := by
  unfold stray
  rw [strayDomain_quiet (h 0), strayDomain_quiet (h 1), strayDomain_quiet (h 2), strayDomain_quiet (h 3)]

/-- A write blocked with no strict domain OPEN. -/
theorem blockWrite_quiet {s : State} (r : Reason) (b : Bool)
    (h : b = true → ∀ d, ¬ ((s.cfg d).strict = true ∧ (s.dom d).state = .opened)) : blockWrite r b s = blockWrite r false s := by
  cases b with
  | false => rfl
  | true =>
    have hstray : stray (reportWrite r (setDisp (.block r) s)) = reportWrite r (setDisp (.block r) s) := by
      refine stray_quiet fun d => ?_
      have := h rfl d
      unfold reportWrite
      rw [record_eq]
      exact this
    unfold blockWrite
    dsimp only
    rw [hstray]
    rfl

theorem takeWrite_hit {s : State} {c : BusCycle} {h : Hit} (hm : s.mode = .guarding) (ha : c.alt = false) (hk : h.kind ≠ .fixed) :
    takeWrite (.hit h) (s.taken c) = handJournal h (s.taken c) := by
  unfold takeWrite
  rw [show (s.taken c).mode = s.mode from rfl, hm]
  dsimp only
  rw [if_neg (by rw [show (s.taken c).port.cycle = c from rfl, ha]; decide), if_neg hk]

/-- The write of a cycle has been handed to the Update Controller (R79). -/
def State.deciding (c : BusCycle) (h : Hit) (g : WriteStage) (s : State) : State :=
  { s with port := .latched .deciding c (some (.hit h)) (some .journal) g }

/-- A primary write on a JOURNAL or ONCE record is handed to the Update Controller. -/
theorem exec_hostWrite_journal {s : State} {addr : Addr} {lanes : Lanes} {data : Word} {h : Hit} (ho : s.PortOpen)
    (hm : s.mode = .guarding) (hl : lanes.low = true ∨ lanes.high = true) (hc : classify s addr = .hit h) (hk : h.kind ≠ .fixed) :
    exec (.hostWrite addr lanes false data) s =
      .next (settleStep false (decideJournal h (s.deciding (writeCycle addr lanes false data) h .none))) := by
  rw [exec_hostWrite_vacant ho.1 ho.2, arrive_write (c := writeCycle addr lanes false data) (by rw [hm]; rfl) rfl hl,
    show (writeCycle addr lanes false data).addr = addr from rfl, hc, takeWrite_hit hm rfl hk]
  unfold handJournal State.taken
  rw [show (writeCycle addr lanes false data).addr = addr from rfl, hc]
  rfl

/-- A write that has been refused with a disposition (R78). -/
def State.refused (c : BusCycle) (d : Disposition) (boost : Bool) (e : Event) (s : State) : State :=
  { s with
    port := .latched .closing c (some (classify s c.addr)) (some d) .none
    memPort := { s.memPort with boost := boost }
    events := (record e s).events }

theorem blockWrite_taken {s : State} {c : BusCycle} (r : Reason) :
    blockWrite r false (s.taken c) =
      s.refused c (.block r) s.memPort.boost (blockedEvent r c (some (classify s c.addr))) := by
  rw [blockWrite_eq, record_events_congr (u := s.taken c) (v := s) _ rfl rfl]
  rfl

theorem dropWrite_deciding {s : State} {c : BusCycle} {h : Hit} (hc : classify s c.addr = .hit h) (r : Reason) :
    dropWrite r (s.deciding c h .none) = s.refused c (.drop r) false (blockedEvent r c (some (.hit h))) := by
  rw [dropWrite_eq, record_events_congr (u := s.deciding c h .none) (v := s) _ rfl rfl, State.refused, hc]
  rfl

theorem decideJournal_rolling {h : Hit} {s : State} (hd : (s.dom h.domain).state = .rolling) :
    decideJournal h s = dropWrite .rolling s := by
  unfold decideJournal
  rw [hd]

theorem decideJournal_fenced {h : Hit} {s : State} (hd : (s.dom h.domain).state = .fenced) :
    decideJournal h s = dropWrite .fenced s := by
  unfold decideJournal
  rw [hd]

theorem decideJournal_failed {h : Hit} {s : State} (hd : (s.dom h.domain).state = .failed) :
    decideJournal h s = dropWrite .failed s := by
  unfold decideJournal
  rw [hd]

/-- Settles O43: the blocked writes by classification, the dropped ones by the domain's state. -/
theorem refusedWritesAreReported : Obligations.RefusedWritesAreReported := by
  intro s addr lanes alt data ho hl
  dsimp only
  have ends : ∀ (d : Disposition) (b : Bool) (e : Event), s.mode ≠ .starting →
      exec (.hostWrite addr lanes alt data) s =
        .next (settleStep false (s.refused (writeCycle addr lanes alt data) d b e)) →
      ∃ t, exec (.hostWrite addr lanes alt data) s = .next t ∧ t.waitAsserted = false
        ∧ Granted (s.refused (writeCycle addr lanes alt data) d b e) t :=
    fun d b e hm h => exec_granted h (loadReady_of_mode _ hm) (by intro h; cases h)
  have hexec : s.mode.holds true = false → exec (.hostWrite addr lanes alt data) s =
      .next (settleStep false (takeWrite (classify s addr) (s.taken (writeCycle addr lanes alt data)))) := by
    intro hh
    rw [exec_hostWrite_vacant ho.1 ho.2, arrive_write (c := writeCycle addr lanes alt data) hh rfl hl]
    rfl
  have blocked : ∀ (r : Reason) (b : Bool), s.mode.holds true = false →
      (b = true → ∀ d, ¬ ((s.cfg d).strict = true ∧ (s.dom d).state = .opened)) →
      takeWrite (classify s addr) (s.taken (writeCycle addr lanes alt data)) =
        blockWrite r b (s.taken (writeCycle addr lanes alt data)) → _ := fun r b hh hno htake =>
    ends (.block r) s.memPort.boost (blockedEvent r (writeCycle addr lanes alt data) (some (classify s addr)))
      (ne_starting_of_takes hh) (by rw [hexec hh, htake, blockWrite_quiet (s := s.taken _) r b hno, blockWrite_taken]; rfl)
  refine ⟨fun hc hm => ?_, fun h hc hm => ?_⟩
  · have hevent : blockedEvent .logArea (writeCycle addr lanes alt data) (some (classify s addr)) =
        .writeBlocked .logArea addr none none 1 := by rw [hc]; rfl
    rw [← hevent]
    obtain ⟨hm, hstray⟩ | hm := hm
    · refine blocked .logArea (!alt) (by rw [hm]; rfl) (fun ha => ?_) ?_
      · exact hstray.resolve_left (by rintro rfl; cases ha)
      · rw [hc, takeWrite, show (s.taken (writeCycle addr lanes alt data)).mode = s.mode from rfl, hm]
        rfl
    · refine blocked .logArea false (by rw [hm]; rfl) (fun ha => by cases ha) ?_
      rw [hc, takeWrite, show (s.taken (writeCycle addr lanes alt data)).mode = s.mode from rfl, hm]
  · have hh : s.mode.holds true = false := by rw [hm]; rfl
    have hevent : ∀ r, blockedEvent r (writeCycle addr lanes alt data) (some (classify s addr)) =
        .writeBlocked r addr (some h.region) (if h.kind = .fixed then none else some h.domain) 1 := by
      intro r
      rw [hc]
      rfl
    have htake : takeWrite (classify s addr) (s.taken (writeCycle addr lanes alt data)) =
        if alt then blockWrite .altWrite false (s.taken (writeCycle addr lanes alt data))
        else if h.kind = .fixed then blockWrite .fixed true (s.taken (writeCycle addr lanes alt data))
        else handJournal h (s.taken (writeCycle addr lanes alt data)) := by
      rw [hc, takeWrite, show (s.taken (writeCycle addr lanes alt data)).mode = s.mode from rfl, hm]
      rfl
    refine ⟨fun ha => ?_, fun ha hk hno => ?_, fun ha hk => ?_⟩
    · rw [← hevent]
      exact blocked .altWrite false hh (fun hb => by cases hb) (htake.trans (if_pos ha))
    · have := hevent .fixed
      rw [if_pos hk] at this
      rw [← this]
      exact blocked .fixed true hh (fun _ => hno) (htake.trans ((if_neg (by rw [ha]; decide)).trans (if_pos hk)))
    · subst ha
      have dropped : ∀ r, decideJournal h (s.deciding (writeCycle addr lanes false data) h .none) =
          dropWrite r (s.deciding (writeCycle addr lanes false data) h .none) → _ := fun r hdrop =>
        ends (.drop r) false (.writeBlocked r addr (some h.region) (some h.domain) 1) (ne_starting_of_takes hh) (by
          rw [exec_hostWrite_journal ho hm hl hc hk, hdrop, dropWrite_deciding (c := writeCycle addr lanes false data) hc,
            blockedEvent_hit hk]
          rfl)
      exact ⟨fun hd => dropped _ (decideJournal_rolling hd), fun hd => dropped _ (decideJournal_fenced hd),
        fun hd => dropped _ (decideJournal_failed hd)⟩

end Sys2Proof.Machine
end

section
/-! STRAY: a primary write that strays aborts every strict OPEN domain (R33, R36, R82). -/

namespace Sys2Proof.Machine

/-- Slots of two lists are moved one list after the other. -/
theorem movedPool_append {old new : SlotState} (hn : old ≠ new) (l₁ l₂ : List Nat) (p : List PoolEntry) :
    movedPool old new (l₁ ++ l₂) p = movedPool old new l₂ (movedPool old new l₁ p) := by
  refine List.ext_getElem? fun i => ?_
  simp only [movedPool, List.getElem?_mapIdx, Option.map_map]
  refine congrArg (fun f => Option.map f p[i]?) (funext fun e => ?_)
  by_cases h : i ∈ l₁ ∧ e.state = old
  · have hmoved : ¬ (i ∈ l₂ ∧ new = old) := fun hb => hn hb.2.symm
    simp [h, hmoved]
  · by_cases h1 : i ∈ l₁
    · have : ¬ e.state = old := fun he => h ⟨h1, he⟩
      simp [this]
    · simp [h1]

theorem movedPool_nil (old new : SlotState) (p : List PoolEntry) : movedPool old new [] p = p := by
  simp only [movedPool, List.not_mem_nil, false_and, if_false]
  exact List.mapIdx_eq_iff.2 (by intro i; simp)

/-- STRAY strikes the domain: it is strict and OPEN (R36). -/
def State.struck (s : State) (d : Fin 4) : Bool := (s.cfg d).strict && decide ((s.dom d).state = .opened)

/-- A domain's record after STRAY. -/
def State.strayed (s : State) (d : Fin 4) : Runtime := if s.struck d then (s.dom d).rolledBack .stray else s.dom d

/-- The slots STRAY moves to RESTORING for a domain. -/
def State.strayedSlots (s : State) (d : Fin 4) : List Nat := if s.struck d then (s.dom d).members else []

/-- STRAY at one domain, others having been struck before it. -/
theorem strayDomain_eq {s : State} {d : Fin 4} {v : Vector Runtime 4} {l : List Nat} (hv : v[d] = s.dom d)
    (hfit : s.struck d = true → (s.dom d).members ≠ [] ∧ ∀ i ∈ (s.dom d).members, (s.slot i).state ≠ .copying) :
    strayDomain d { s with domains := v, pool := movedPool .active .restoring l s.pool } =
      { s with
        domains := v.set d (s.strayed d)
        pool := movedPool .active .restoring (l ++ s.strayedSlots d) s.pool } := by
  by_cases hs : s.struck d = true
  · obtain ⟨hne, hcopy⟩ := hfit hs
    have hstruck : (s.cfg d).strict = true ∧ (s.dom d).state = .opened := by
      simpa [State.struck] using hs
    have hdom : ({ s with domains := v, pool := movedPool .active .restoring l s.pool } : State).dom d = s.dom d := hv
    have hcond : (({ s with domains := v, pool := movedPool .active .restoring l s.pool } : State).cfg d).strict = true
        ∧ (({ s with domains := v, pool := movedPool .active .restoring l s.pool } : State).dom d).state = .opened := by
      rw [hdom]
      exact hstruck
    unfold strayDomain
    rw [if_pos hcond, rollback_begins _ d .stray (by rw [hdom]; exact hne) (by
      intro i hi
      rw [hdom] at hi
      exact fun h => hcopy i hi ((copying_movedPool l { s with domains := v } i).mp h)), hdom, State.strayed, State.strayedSlots,
      if_pos hs, if_pos hs, movedPool_append (by decide)]
  · have hno : ¬ ((s.cfg d).strict = true ∧ (s.dom d).state = .opened) := by
      simpa [State.struck] using hs
    rw [strayDomain_quiet (s := { s with domains := v, pool := movedPool .active .restoring l s.pool }) (d := d) (by
      change ¬ (_ ∧ (v[d]).state = _)
      rw [hv]
      exact hno), State.strayed, State.strayedSlots, if_neg hs, if_neg hs, List.append_nil, ← hv, Fin.getElem_fin,
      Vector.set_getElem_self]

/-- STRAY at several domains. -/
theorem foldl_strayDomain {s : State}
    (hfit : ∀ d, s.struck d = true → (s.dom d).members ≠ [] ∧ ∀ i ∈ (s.dom d).members, (s.slot i).state ≠ .copying) :
    ∀ (ds : List (Fin 4)) (v : Vector Runtime 4) (l : List Nat), ds.Nodup → (∀ d ∈ ds, v[d] = s.dom d) →
      ds.foldl (fun t d => strayDomain d t) { s with domains := v, pool := movedPool .active .restoring l s.pool } =
        { s with
          domains := ds.foldl (fun (v : Vector Runtime 4) (d : Fin 4) => v.set d (s.strayed d)) v
          pool := movedPool .active .restoring (l ++ ds.flatMap s.strayedSlots) s.pool }
  | [], v, l, _, _ => by simp only [List.foldl_nil, List.flatMap_nil, List.append_nil]
  | d :: ds, v, l, hnodup, hv => by
    obtain ⟨hd, hds⟩ := List.nodup_cons.mp hnodup
    rw [List.foldl_cons, strayDomain_eq (hv d List.mem_cons_self) (hfit d), foldl_strayDomain hfit ds _ _ hds,
      List.flatMap_cons, List.append_assoc]
    · rfl
    · intro e he
      rw [getElem_set_domain, if_neg (fun h : d = e => hd (h ▸ he))]
      exact hv e (List.mem_cons_of_mem d he)

/-- STRAY strikes every strict OPEN domain, none with a copy of its own in flight (R36). -/
theorem stray_eq {s : State}
    (hfit : ∀ d, s.struck d = true → (s.dom d).members ≠ [] ∧ ∀ i ∈ (s.dom d).members, (s.slot i).state ≠ .copying) :
    stray s = { s with
      domains := Vector.ofFn s.strayed
      pool := movedPool .active .restoring (domainIndices.flatMap s.strayedSlots) s.pool } := by
  have hfold : stray s = domainIndices.foldl (fun t d => strayDomain d t) s := by
    simp only [stray, domainIndices, List.foldl_cons, List.foldl_nil]
  have hstart : s = { s with domains := s.domains, pool := movedPool .active .restoring [] s.pool } := by
    rw [movedPool_nil]
  rw [hfold]
  conv_lhs => rw [hstart]
  rw [foldl_strayDomain hfit domainIndices s.domains [] (by decide) fun _ _ => rfl, List.nil_append,
    foldl_set_eq mem_domainIndices _ (Vector.ofFn s.strayed) fun e => by simp]

/-- A blocked write that raises STRAY: the report, the struck domains, the cycle's end, in that order (R77, R82). -/
theorem blockWrite_strays {s : State} (r : Reason)
    (hfit : ∀ d, s.struck d = true → (s.dom d).members ≠ [] ∧ ∀ i ∈ (s.dom d).members, (s.slot i).state ≠ .copying) :
    blockWrite r true s = { s with
      port := s.port.ended (.block r)
      events := (record (blockedEvent r s.port.cycle s.port.cls) s).events
      domains := Vector.ofFn s.strayed
      pool := movedPool .active .restoring (domainIndices.flatMap s.strayedSlots) s.pool } := by
  unfold blockWrite reportWrite
  dsimp only
  rw [record_eq, if_pos rfl, stray_eq (s := { setDisp (.block r) s with events := _ }) hfit]
  simp only [record_events]
  rfl

/-- Settles O44: the report first, then the struck domains, then the cycle's end. -/
theorem strayWritesAbortStrictDomains : Obligations.StrayWritesAbortStrictDomains := by
  intro s addr lanes data ho hm hl
  dsimp only
  intro hfit
  have hexec := exec_hostWrite_vacant (addr := addr) (lanes := lanes) (alt := false) (data := data) ho.1 ho.2
  rw [arrive_write (c := writeCycle addr lanes false data) (by rw [hm]; rfl) rfl hl] at hexec
  have aborts : ∀ r : Reason, takeWrite (classify s addr) (s.taken (writeCycle addr lanes false data)) =
      blockWrite r true (s.taken (writeCycle addr lanes false data)) → _ := fun r htake =>
    exec_granted (u := { s with
        port := .latched .closing (writeCycle addr lanes false data) (some (classify s addr)) (some (.block r)) .none
        events := (record (blockedEvent r (writeCycle addr lanes false data) (some (classify s addr))) s).events
        domains := Vector.ofFn s.strayed
        pool := movedPool .active .restoring (domainIndices.flatMap s.strayedSlots) s.pool }) (b := false)
      (hexec.trans (by
        rw [show (writeCycle addr lanes false data).addr = addr from rfl, htake]
        rw [blockWrite_strays r (by exact hfit)]
        simp only [record_events]
        rfl)) (loadReady_of_mode _ (by rw [hm]; exact Mode.noConfusion)) (by intro h; cases h)
  refine ⟨fun hc => ?_, fun h hc hk => ?_⟩
  · have htake : takeWrite (classify s addr) (s.taken (writeCycle addr lanes false data)) =
        blockWrite .logArea true (s.taken (writeCycle addr lanes false data)) := by
      rw [hc, takeWrite, show (s.taken (writeCycle addr lanes false data)).mode = s.mode from rfl, hm]
      rfl
    have h := aborts .logArea htake
    rw [hc] at h ⊢
    exact h
  · have htake : takeWrite (classify s addr) (s.taken (writeCycle addr lanes false data)) =
        blockWrite .fixed true (s.taken (writeCycle addr lanes false data)) := by
      rw [hc, takeWrite, show (s.taken (writeCycle addr lanes false data)).mode = s.mode from rfl, hm]
      dsimp only
      rw [if_neg (by rw [show (s.taken (writeCycle addr lanes false data)).port.cycle.alt = false from rfl]; decide), if_pos hk]
    have hevent : blockedEvent .fixed (writeCycle addr lanes false data) (some (.hit h)) =
        .writeBlocked .fixed addr (some h.region) none 1 := by
      simp [blockedEvent, hk, writeCycle]
    have h := aborts .fixed htake
    rw [hc, hevent] at h
    rw [hc]
    exact h

end Sys2Proof.Machine
end

section
/-! Writes disposed of by the Update Controller: members, joins and commit attempts (R11, R12, R22 to R24, R27 to R30). -/

namespace Sys2Proof.Machine

/-! ### The guard and the commit attempt -/

theorem GuardMode.passes_iff (g : GuardMode) (old new : Word) : g.passes old new = true ↔ g.Accepts old new := by
  cases g with
  | any => exact iff_of_true rfl trivial
  | advance => exact decide_eq_true_iff
  | increase => exact decide_eq_true_iff
  | change => exact decide_eq_true_iff

/-- The guard accepts the Port's write over the commit word's value (R11, R12). -/
def State.GuardAccepts (s : State) (h : Hit) : Prop :=
  (s.cfg h.domain).guardMode.Accepts (s.oldCommitValue h) (s.port.cycle.merged (s.oldCommitValue h))

theorem State.oldCommitValue_eq {s : State} {h : Hit} {i : Nat} (hi : s.indexed h.region h.record = some i) :
    s.oldCommitValue h = Memory.word s.memory (s.slotAddr i (4 + h.offset)) := by
  unfold State.oldCommitValue
  rw [hi]

/-- On a guard pass the update is COMMITTING and the host's store is asked for (R30). -/
theorem evaluateGuard_passes {h : Hit} {s : State} (hg : s.GuardAccepts h) :
    evaluateGuard h s = { s with
      port := { s.port with stage := .commitStore }
      memPort := { s.memPort with boost := false }
      domains := s.domains.set h.domain { s.dom h.domain with state := .committing, timer := 0 } } := by
  unfold evaluateGuard
  exact if_pos ((GuardMode.passes_iff _ _ _).mpr hg)

/-- On a guard failure the update aborts with cause GUARD, the write dropped first (R11, R34). -/
theorem evaluateGuard_fails {h : Hit} {s : State} (hg : ¬ s.GuardAccepts h) (hne : (s.dom h.domain).members ≠ [])
    (hcopy : ∀ i ∈ (s.dom h.domain).members, (s.slot i).state ≠ .copying) (hst : s.port.state = .deciding)
    (hd : s.port.disp = some .journal) (hc : s.port.cls = some (.hit h)) :
    evaluateGuard h s = { s with
      port := s.port.ended (.drop .dropped)
      memPort := { s.memPort with boost := false }
      events := (record (blockedEvent .dropped s.port.cycle s.port.cls) s).events
      domains := s.domains.set h.domain ((s.dom h.domain).rolledBack .guard)
      pool := movedPool .active .restoring (s.dom h.domain).members s.pool } := by
  unfold evaluateGuard
  refine (if_neg fun hp => hg ((GuardMode.passes_iff _ _ _).mp hp)).trans ?_
  rw [abort_waitingWrite (s := setStage .none (setBoost false s)) hne hcopy (holdsWriteOf_hit hst hd hc) (.inl rfl),
    record_events_congr (u := setStage .none (setBoost false s)) (v := s) _ rfl rfl]
  rfl

theorem commitAttempt_waits {h : Hit} {s : State} (hb : (s.dom h.domain).backlog ≠ 0) :
    commitAttempt h s = { s with port := { s.port with stage := .backlog }, memPort := { s.memPort with boost := true } } := by
  unfold commitAttempt
  exact if_neg hb

theorem commitAttempt_evaluates {h : Hit} {s : State} (hb : (s.dom h.domain).backlog = 0) :
    commitAttempt h s = evaluateGuard h s := by
  unfold commitAttempt
  exact if_pos hb

/-! ### Deciding -/

theorem decideJournal_idle {h : Hit} {s : State} (hd : (s.dom h.domain).state = .idle) : decideJournal h s = joinRecord h s := by
  unfold decideJournal
  rw [hd]

theorem isMember_iff {s : State} {h : Hit} :
    s.isMember h = true ↔ ∃ i, s.indexed h.region h.record = some i ∧ (s.slot i).state = .active := by
  unfold State.isMember
  cases s.indexed h.region h.record with
  | none => simp
  | some i => simp

theorem decideJournal_outsider {h : Hit} {s : State} (hd : (s.dom h.domain).state = .opened)
    (hm : ∀ j, s.indexed h.region h.record = some j → (s.slot j).state ≠ .active) : decideJournal h s = joinRecord h s := by
  unfold decideJournal
  rw [hd]
  refine if_neg ?_
  rw [isMember_iff]
  exact fun ⟨i, hi, hst⟩ => hm i hi hst

theorem isCommitWord_iff {s : State} {d : Fin 4} {a : Addr} :
    s.isCommitWord d a = true ↔ (s.cfg d).enabled = true ∧ (s.cfg d).commitAddr = a := by
  simp [State.isCommitWord]

theorem decideJournal_commits {h : Hit} {s : State} {i : Nat} (hd : (s.dom h.domain).state = .opened)
    (hi : s.indexed h.region h.record = some i) (hst : (s.slot i).state = .active)
    (hw : (s.cfg h.domain).enabled = true ∧ (s.cfg h.domain).commitAddr = s.port.cycle.addr) :
    decideJournal h s = commitAttempt h s := by
  unfold decideJournal
  rw [hd]
  exact (if_pos (isMember_iff.mpr ⟨i, hi, hst⟩)).trans (if_pos (isCommitWord_iff.mpr hw))

theorem decideJournal_stores {h : Hit} {s : State} {i : Nat} (hd : (s.dom h.domain).state = .opened)
    (hi : s.indexed h.region h.record = some i) (hst : (s.slot i).state = .active)
    (hw : ¬ ((s.cfg h.domain).enabled = true ∧ (s.cfg h.domain).commitAddr = s.port.cycle.addr)) :
    decideJournal h s = setStage .store s := by
  unfold decideJournal
  rw [hd]
  exact (if_pos (isMember_iff.mpr ⟨i, hi, hst⟩)).trans (if_neg fun h => hw (isCommitWord_iff.mp h))

/-- The host's store is the next access. -/
theorem Granted.stores {s u t : State} (hg : Granted u t) (hs : s.Settled) (ha : s.memPort.access = none)
    (hst : s.memPort.stopped = false) (hua : u.memPort.access = s.memPort.access) (hus : u.memPort.stopped = s.memPort.stopped)
    (hrest : ∀ e, e ≠ .host → u.Ready e → s.Ready e) (hstate : u.port.state = .deciding)
    (hstage : u.port.stage = .store ∨ u.port.stage = .commitStore) : t.memPort.access = some (hostStoreOf u.port.cycle) := by
  refine hg.begins (c := .host) hs ha hst hua hus hrest ?_
  rw [accessOf, hostAccess, hstate]
  obtain h | h := hstage <;> rw [h] <;> rfl

/-- A domain's record that keeps its stream. -/
theorem stream_setDom {s : State} {d : Fin 4} {r : Runtime} (hr : r.stream = (s.dom d).stream) (e : Fin 4) :
    ((s.setDom d r).dom e).stream = (s.dom e).stream := by
  rw [State.dom, State.setDom, getElem_set_domain]
  by_cases he : d = e
  · rw [if_pos he, hr, he]
  · rw [if_neg he]
    rfl

/-- Settles O46: the member's store, and the commit attempt's three outcomes. -/
theorem memberWritesAndCommitAttempts : Obligations.MemberWritesAndCommitAttempts := by
  intro s addr lanes data h i ho hm hl hc hk hd hi hst
  dsimp only
  have hexec := exec_hostWrite_journal (data := data) ho hm hl hc hk
  have hns : s.mode ≠ .starting := by rw [hm]; exact Mode.noConfusion
  have hold : (s.deciding (writeCycle addr lanes false data) h .none).oldCommitValue h =
      Memory.word s.memory (s.slotAddr i (4 + h.offset)) := State.oldCommitValue_eq hi
  have hcommit := fun hw => hexec.trans (by
    rw [decideJournal_commits (s := s.deciding (writeCycle addr lanes false data) h .none) hd hi hst hw])
  refine ⟨fun hw => ?_, fun hw hb => ?_, fun hw hb hg => ?_, fun hw hb hg hne hcopy => ?_⟩
  · rw [decideJournal_stores (s := s.deciding (writeCycle addr lanes false data) h .none) hd hi hst hw] at hexec
    obtain ⟨t, ht, -, hg⟩ := exec_granted hexec (loadReady_of_mode _ hns) (by intro h; cases h)
    exact ⟨t, ht, hg, fun hs ha hstop => hg.stores hs ha hstop rfl rfl (fun e he h => ready_of_port he h) rfl (.inl rfl)⟩
  · have hexec := hcommit hw
    rw [commitAttempt_waits (s := s.deciding _ h .none) hb] at hexec
    obtain ⟨t, ht, -, hg⟩ := exec_granted hexec (loadReady_of_mode _ hns) (by intro h; cases h)
    exact ⟨t, ht, hg⟩
  · have hexec := hcommit hw
    have haccepts : (s.deciding (writeCycle addr lanes false data) h .none).GuardAccepts h := by
      unfold State.GuardAccepts
      rw [hold]
      exact hg
    rw [commitAttempt_evaluates (s := s.deciding _ h .none) hb, evaluateGuard_passes haccepts] at hexec
    obtain ⟨t, ht, -, hg⟩ := exec_granted hexec (loadReady_of_mode _ hns) (by intro h; cases h)
    refine ⟨t, ht, hg, fun hs ha hstop => hg.stores hs ha hstop rfl rfl (fun e he hr => ?_) rfl (.inr rfl)⟩
    cases e with
    | host => exact absurd rfl he
    | restore d =>
      obtain ⟨st, j, hstream, hslot⟩ := hr
      exact ⟨st, j, (stream_setDom (s := s) (d := h.domain) (r := { s.dom h.domain with state := .committing, timer := 0 }) rfl
        d).symm.trans hstream, hslot⟩
    | _ => exact hr
  · have hexec := hcommit hw
    have hrefuses : ¬ (s.deciding (writeCycle addr lanes false data) h .none).GuardAccepts h := by
      unfold State.GuardAccepts
      rw [hold]
      exact hg
    rw [commitAttempt_evaluates (s := s.deciding _ h .none) hb, evaluateGuard_fails (s := s.deciding _ h .none) hrefuses hne hcopy
      rfl rfl rfl] at hexec
    obtain ⟨t, ht, hwait, hg⟩ := exec_granted hexec (loadReady_of_mode _ hns) (by intro h; cases h)
    refine ⟨t, ht, hwait, ?_⟩
    have hevent : blockedEvent .dropped (writeCycle addr lanes false data) (some (.hit h)) =
      .writeBlocked .dropped addr (some h.region) (some h.domain) 1 := blockedEvent_hit hk
    rw [← hevent, ← record_events_congr (u := s.deciding (writeCycle addr lanes false data) h .none) (v := s) _ rfl rfl]
    exact hg

/-! ### Joining -/

theorem joinRecord_seeks {h : Hit} {s : State}
    (hq : (s.dom h.domain).state = .idle ∨ (s.dom h.domain).members.length < (s.cfg h.domain).quota) :
    joinRecord h s = seekSlot h s := by
  unfold joinRecord
  refine if_neg fun ⟨ho, hle⟩ => ?_
  obtain hd | hlt := hq
  · rw [hd] at ho
    cases ho
  · exact absurd hlt (Nat.not_lt.mpr hle)

theorem joinRecord_quota {h : Hit} {s : State} (ho : (s.dom h.domain).state = .opened)
    (hq : (s.cfg h.domain).quota ≤ (s.dom h.domain).members.length) : joinRecord h s = abortUpdate h.domain .quota s := by
  unfold joinRecord
  exact if_pos ⟨ho, hq⟩

theorem seekSlot_takes {h : Hit} {s : State} {i : Nat} {rest : List Nat} (hf : s.freeQueue = i :: rest) :
    seekSlot h s = takeSlot h i rest s := by
  unfold seekSlot
  rw [hf]

theorem slotComing_iff {s : State} : s.slotComing = true ↔ ∃ e ∈ s.pool, e.state = .retiring ∨ e.state = .restoring := by
  simp [State.slotComing]

theorem seekSlot_waits {h : Hit} {s : State} (hf : s.freeQueue = [])
    (hc : ∃ e ∈ s.pool, e.state = .retiring ∨ e.state = .restoring) :
    seekSlot h s = { s with port := { s.port with stage := .slot }, memPort := { s.memPort with boost := true } } := by
  unfold seekSlot
  split
  next h => rw [hf] at h; cases h
  next => exact if_pos (slotComing_iff.mpr hc)

theorem seekSlot_full {h : Hit} {s : State} (hf : s.freeQueue = [])
    (hc : ¬ ∃ e ∈ s.pool, e.state = .retiring ∨ e.state = .restoring) : seekSlot h s = abortUpdate h.domain .logFull s := by
  unfold seekSlot
  split
  next h => rw [hf] at h; cases h
  next => exact if_neg fun h => hc (slotComing_iff.mp h)

/-- A joining record has taken the slot (R23, R37). -/
def State.joined (s : State) (h : Hit) (i : Nat) (rest : List Nat) : State := { s with
  freeQueue := rest
  slotIndex := s.slotIndex ++ [{ region := h.region, record := h.record, slot := i }]
  copy := some { slot := i, pos := .read 0, back := false, sum := 0 }
  domains := s.domains.set h.domain { s.dom h.domain with
    state := .opened
    timer := if (s.dom h.domain).state = .idle then (s.cfg h.domain).deadline.toNat else (s.dom h.domain).timer
    members := (s.dom h.domain).members ++ [i] }
  pool := s.pool.set i { state := .copying, domain := h.domain, epoch := (s.dom h.domain).committed + 1,
                         region := h.region, record := h.record } }

theorem takeSlot_eq {h : Hit} {i : Nat} {rest : List Nat} {s : State} :
    takeSlot h i rest s = { s.joined h i rest with
      port := { s.port with stage := .copy }
      memPort := { s.memPort with boost := false } } := rfl

/-- The copy's first access reads the record's first word (R3, R57). -/
theorem copyAccess_first {u : State} {i : Nat} {e : PoolEntry}
    (hc : u.copy = some { slot := i, pos := .read 0, back := false, sum := 0 }) (he : u.slot i = e) :
    accessOf u .copy = some (readOf .copy
      ((u.layout.regions[e.region]).base.toNat + (u.layout.regions[e.region]).size * e.record)) := by
  subst he
  rw [accessOf, hc]
  rfl

theorem joined_slot {s : State} {h : Hit} {i : Nat} {rest : List Nat} (hi : i < s.pool.length) :
    (s.joined h i rest).slot i = { state := .copying, domain := h.domain, epoch := (s.dom h.domain).committed + 1,
                                   region := h.region, record := h.record } := by
  simp [State.slot, State.joined, hi]

theorem joined_stream (s : State) (h : Hit) (i : Nat) (rest : List Nat) (d : Fin 4) :
    ((s.joined h i rest).dom d).stream = (s.dom d).stream :=
  stream_setDom (s := s) (d := h.domain) (by rfl) d

/-- Settles O45: the join's decision, the slot taken, and the copy's claim that alone has become ready. -/
theorem joiningRecordTakesTheNextSlot : Obligations.JoiningRecordTakesTheNextSlot := by
  intro s addr lanes data h i rest ho hm hl hc hk hd hf
  have hexec := exec_hostWrite_journal (data := data) ho hm hl hc hk
  have hjoin : decideJournal h (s.deciding (writeCycle addr lanes false data) h .none) =
      takeSlot h i rest (s.deciding (writeCycle addr lanes false data) h .none) := by
    obtain hd | ⟨hd, hq, hout⟩ := hd
    · rw [decideJournal_idle (s := s.deciding _ h .none) hd, joinRecord_seeks (s := s.deciding _ h .none) (.inl hd),
        seekSlot_takes (s := s.deciding _ h .none) hf]
    · rw [decideJournal_outsider (s := s.deciding _ h .none) hd hout, joinRecord_seeks (s := s.deciding _ h .none) (.inr hq),
        seekSlot_takes (s := s.deciding _ h .none) hf]
  have hns : s.mode ≠ .starting := by rw [hm]; exact Mode.noConfusion
  rw [hjoin, takeSlot_eq] at hexec
  obtain ⟨t, ht, hwait, hg⟩ := exec_granted hexec (loadReady_of_mode _ hns) (by intro h; cases h)
  refine ⟨t, ht, hwait, hg, fun hs ha hstop hi => ?_⟩
  refine hg.begins (c := .copy) hs ha hstop rfl rfl (fun e he hr => ?_)
    (copyAccess_first rfl (joined_slot (s := s) (h := h) (rest := rest) hi))
  cases e with
  | host => obtain hr | ⟨-, hr | hr⟩ := hr <;> cases hr
  | copy => exact absurd rfl he
  | restore d =>
    obtain ⟨st, j, hstream, hslot⟩ := hr
    exact ⟨st, j, (joined_stream s h i rest d).symm.trans hstream, hslot⟩
  | _ => exact hr

/-- An abort that drops a write of a domain without members ends at once, WRITE_BLOCKED recorded before ABORTED (R34, R35). -/
theorem abort_empty {s : State} {d : Fin 4} {c : Cause} (he : (s.dom d).members = []) (hh : s.holdsWriteOf d = true)
    (hs : s.port.stage = .none ∨ s.port.stage = .slot ∨ s.port.stage = .backlog) :
    abortUpdate d c s =
      { s with
        domains := s.domains.set d { s.dom d with
          state := if (s.cfg d).fence then .fenced else .idle, timer := 0, restoreList := [], stream := none }
        port := s.port.ended (.drop .dropped)
        memPort := { s.memPort with boost := false }
        events := (record (.aborted d ((s.dom d).committed + 1) c 0)
          (record (blockedEvent .dropped s.port.cycle s.port.cls) s)).events } := by
  have hmembers : ({ s.dom d with
      state := if (s.cfg d).fence then .fenced else .idle, timer := 0, restoreList := [], stream := none } : Runtime) =
      { s.dom d with
        state := if (s.cfg d).fence then .fenced else .idle, timer := 0, members := [], restoreList := [], stream := none } := by
    rw [← he]
  rw [abortUpdate_drops s d c hh hs, dropWrite_eq, rollback_ends _ d c (by exact he), record_eq, hmembers]
  exact congrArg (fun es => ({ s with
      domains := s.domains.set d { s.dom d with
        state := if (s.cfg d).fence then .fenced else .idle, timer := 0, members := [], restoreList := [], stream := none }
      port := s.port.ended (.drop .dropped)
      memPort := { s.memPort with boost := false }
      events := es } : State))
    (record_events_congr (v := record (blockedEvent .dropped s.port.cycle s.port.cls) s) _ (by rw [record_eq]) rfl)

/-- Settles O47: the wait for a slot, the update that ends at once, and the two rollbacks. -/
theorem joinWithoutASlotWaitsOrAborts : Obligations.JoinWithoutASlotWaitsOrAborts := by
  intro s addr lanes data h ho hm hl hc hk
  have hexec := exec_hostWrite_journal (data := data) ho hm hl hc hk
  have hns : s.mode ≠ .starting := by rw [hm]; exact Mode.noConfusion
  have hevent : blockedEvent .dropped (writeCycle addr lanes false data) (some (.hit h)) =
    .writeBlocked .dropped addr (some h.region) (some h.domain) 1 := blockedEvent_hit hk
  have hrecord : ∀ e, (record e (s.deciding (writeCycle addr lanes false data) h .none)).events = (record e s).events :=
    fun e => record_events_congr (u := s.deciding (writeCycle addr lanes false data) h .none) (v := s) e rfl rfl
  have rollsBack : ∀ cause, (s.dom h.domain).members ≠ [] →
      (∀ j ∈ (s.dom h.domain).members, (s.slot j).state ≠ .copying) →
      decideJournal h (s.deciding (writeCycle addr lanes false data) h .none) =
        abortUpdate h.domain cause (s.deciding (writeCycle addr lanes false data) h .none) → _ := fun cause hne hcopy habort =>
    exec_granted (u := { s with
        port := .latched .closing (writeCycle addr lanes false data) (some (.hit h)) (some (.drop .dropped)) .none
        memPort := { s.memPort with boost := false }
        events := (record (.writeBlocked .dropped addr (some h.region) (some h.domain) 1) s).events
        domains := s.domains.set h.domain ((s.dom h.domain).rolledBack cause)
        pool := movedPool .active .restoring (s.dom h.domain).members s.pool }) (b := false)
      (hexec.trans (by
        rw [habort, abort_waitingWrite (s := s.deciding (writeCycle addr lanes false data) h .none) hne hcopy
          (holdsWriteOf_hit rfl rfl rfl) (.inl rfl), hrecord, ← hevent]
        rfl)) (loadReady_of_mode _ hns) (by intro h; cases h)
  refine ⟨fun hd hf hcoming => ?_, fun hd he hf hno => ?_, fun ⟨hd, hout⟩ hne hcopy => ⟨fun hq => ?_, fun hq hf hno => ?_⟩⟩
  · have hseek : decideJournal h (s.deciding (writeCycle addr lanes false data) h .none) =
        seekSlot h (s.deciding (writeCycle addr lanes false data) h .none) := by
      obtain hd | ⟨⟨hd, hout⟩, hq⟩ := hd
      · rw [decideJournal_idle (s := s.deciding _ h .none) hd, joinRecord_seeks (s := s.deciding _ h .none) (.inl hd)]
      · rw [decideJournal_outsider (s := s.deciding _ h .none) hd hout, joinRecord_seeks (s := s.deciding _ h .none) (.inr hq)]
    rw [hseek, seekSlot_waits (s := s.deciding _ h .none) hf hcoming] at hexec
    exact exec_granted hexec (loadReady_of_mode _ hns) (by intro h; cases h)
  · rw [decideJournal_idle (s := s.deciding _ h .none) hd, joinRecord_seeks (s := s.deciding _ h .none) (.inl hd),
      seekSlot_full (s := s.deciding _ h .none) hf hno, abort_empty (s := s.deciding _ h .none) he
      (holdsWriteOf_hit rfl rfl rfl) (.inl rfl)] at hexec
    obtain ⟨t, ht, hwait, hg⟩ := exec_granted hexec (loadReady_of_mode _ hns) (by intro h; cases h)
    refine ⟨t, ht, hwait, ?_⟩
    have hevents : (record (.aborted h.domain ((s.dom h.domain).committed + 1) .logFull 0)
          (record (blockedEvent .dropped (writeCycle addr lanes false data) (some (.hit h)))
            (s.deciding (writeCycle addr lanes false data) h .none))).events =
        (record (.aborted h.domain ((s.dom h.domain).committed + 1) .logFull 0)
          (record (.writeBlocked .dropped addr (some h.region) (some h.domain) 1) s)).events := by
      rw [hevent]
      exact record_events_congr _ (by rw [record_mask, record_mask]; rfl) (hrecord _)
    rw [← hevents]
    exact hg
  · exact rollsBack .quota hne hcopy (by
      rw [decideJournal_outsider (s := s.deciding _ h .none) hd hout, joinRecord_quota (s := s.deciding _ h .none) hd hq])
  · exact rollsBack .logFull hne hcopy (by
      rw [decideJournal_outsider (s := s.deciding _ h .none) hd hout, joinRecord_seeks (s := s.deciding _ h .none) (.inr hq),
        seekSlot_full (s := s.deciding _ h .none) hf hno])

end Sys2Proof.Machine
end

section
/-! The access a claimant's work has come to, and the steps that begin one (R103, R106, R107). -/

namespace Sys2Proof.Machine

/-! ### The accesses of the claimants -/

theorem readAccess_reads (c : Claimant) (n : Nat) : (readAccess c (BitVec.ofNat 19 n)).reads n := ⟨rfl, rfl, rfl⟩

theorem readAccess_reads_addr (c : Claimant) (a : Addr) : (readAccess c a).reads a.toNat :=
  ⟨rfl, (BitVec.ofNat_toNat 19 a).symm ▸ (BitVec.setWidth_eq a).symm, rfl⟩

theorem writeOrBack_verifies (c : Claimant) (back : Bool) (n : Nat) (w : Word) :
    (writeOrBack c back (BitVec.ofNat 19 n) w).verifies back n w := by
  cases back with
  | true => exact readAccess_reads c n
  | false => exact ⟨rfl, rfl, rfl, rfl⟩

theorem restoreAccess_restores (c : Claimant) (s : State) (e : RegionEntry) (i rec : Nat) (pos : RestorePos) (back : Bool) :
    s.Restores (restoreAccess c s e i rec pos back) e i rec pos back := by
  cases pos with
  | read k => exact readAccess_reads c _
  | word k w => exact writeOrBack_verifies c back _ w
  | tag => exact writeOrBack_verifies c back _ 0

theorem hostAccess_needs {s : State} {a : Access} (h : hostAccess s = some a) : s.Needs a := by
  obtain ⟨hc, ho⟩ := accessOf_claimant (c := .host) h
  refine ⟨ho, ?_⟩
  rw [hc]
  dsimp only
  unfold hostAccess at h
  dsimp only at h
  split at h
  next hst =>
    refine .inl ⟨hst, ?_⟩
    by_cases hw : s.port.cycle.write = true
    · rw [if_pos hw] at h ⊢
      obtain rfl := Option.some.inj h
      exact ⟨rfl, rfl, rfl, rfl⟩
    · rw [if_neg hw] at h ⊢
      obtain rfl := Option.some.inj h
      cases s.port.disp with
      | none => exact readAccess_reads_addr _ _
      | some d => cases d <;> exact readAccess_reads_addr _ _
  next hst =>
    refine .inr ⟨hst, ?_⟩
    split at h
    next hg => obtain rfl := Option.some.inj h; exact ⟨.inl hg, rfl, rfl, rfl, rfl⟩
    next hg => obtain rfl := Option.some.inj h; exact ⟨.inr hg, rfl, rfl, rfl, rfl⟩
    next => cases h
  next => cases h

theorem copyAccess_needs {s : State} {c : CopyStream} (h : s.copy = some c) : s.Needs (copyAccess s c) := by
  obtain ⟨hc, ho⟩ := accessOf_claimant (s := s) (c := .copy) (by rw [accessOf, h]; rfl)
  refine ⟨ho, ?_⟩
  rw [hc]
  refine ⟨c, h, ?_⟩
  obtain ⟨i, pos, back, sum⟩ := c
  cases pos with
  | read k => exact readAccess_reads .copy _
  | _ => exact writeOrBack_verifies .copy back _ _

theorem recoveryAccess_needs {s : State} {a : Access} (hm : s.mode = .starting) (h : recoveryAccess s = some a) : s.Needs a := by
  obtain ⟨hc, ho⟩ := accessOf_claimant (s := s) (c := .recovery) (by rw [accessOf, if_pos hm]; exact h)
  refine ⟨ho, ?_⟩
  rw [hc]
  refine ⟨hm, ?_⟩
  unfold recoveryAccess at h
  split at h
  next => cases h
  next hp => rw [hp]; obtain rfl := Option.some.inj h; exact readAccess_reads _ _
  next => cases h
  next d ds hp => rw [hp]; obtain rfl := Option.some.inj h; exact ⟨d, ds, rfl, readAccess_reads _ _⟩
  next hp => rw [hp]; obtain rfl := Option.some.inj h; exact writeOrBack_verifies _ _ _ _
  next pos back hnot hp =>
    rw [hp]
    obtain rfl := Option.some.inj h
    cases pos with
    | clear j => exact absurd rfl (hnot j)
    | _ => exact readAccess_reads _ _
  next hp => rw [hp]; obtain rfl := Option.some.inj h; exact restoreAccess_restores _ _ _ _ _ _ _

theorem copyAddr128_eq (start : Nat) (c : CopyName) (k : Nat) :
    copyAddr128 start c k = BitVec.ofNat 19 (start + (k + if c = .a then 0 else 128)) := by
  cases c with
  | a => rfl
  | b => exact congrArg (fun n => BitVec.ofNat 19 (start + n)) (Nat.add_comm 128 k)

theorem installAccess_needs {s : State} {st : InstallStream} {a : Access} (hst : s.install = some st)
    (h : installAccess s st = some a) : s.Needs a := by
  obtain ⟨hc, ho⟩ := accessOf_claimant (s := s) (c := .install) (by rw [accessOf, hst]; exact h)
  refine ⟨ho, ?_⟩
  rw [hc]
  refine ⟨st, hst, ?_⟩
  obtain ⟨ret, target, seq, step, back, epochs⟩ := st
  unfold installAccess at h
  cases step with
  | tags i => obtain rfl := Option.some.inj h; exact writeOrBack_verifies _ _ _ _
  | copy k =>
    obtain rfl := Option.some.inj h
    dsimp only [installWrite]
    rw [copyAddr128_eq]
    exact writeOrBack_verifies _ _ _ _
  | epochs ds =>
    cases ds with
    | nil => cases h
    | cons d rest => obtain rfl := Option.some.inj h; exact ⟨d, rest, rfl, readAccess_reads _ _⟩

/-- A claimant's access is the one its work has come to. -/
theorem accessOf_needs {s : State} {c : Claimant} {a : Access} (h : accessOf s c = some a) : s.Needs a := by
  have hclaim := accessOf_claimant h
  cases c with
  | host => exact hostAccess_needs h
  | copy =>
    have h : s.copy.map (copyAccess s) = some a := h
    obtain ⟨c, hc, rfl⟩ := Option.map_eq_some_iff.mp h
    exact copyAccess_needs hc
  | commit =>
    have h : s.commit.map (commitAccess s) = some a := h
    obtain ⟨c, hc, rfl⟩ := Option.map_eq_some_iff.mp h
    refine ⟨hclaim.2, ?_⟩
    rw [hclaim.1]
    exact ⟨c, hc, writeOrBack_verifies _ _ _ _⟩
  | restore d =>
    refine ⟨hclaim.2, ?_⟩
    rw [hclaim.1]
    have h : restoreStreamAccess s d = some a := h
    unfold restoreStreamAccess at h
    split at h
    next => cases h
    next st hst =>
      obtain ⟨i, hi, rfl⟩ := Option.map_eq_some_iff.mp h
      exact ⟨st, i, hst, hi, restoreAccess_restores _ _ _ _ _ _ _⟩
  | install =>
    have h : s.install.bind (installAccess s) = some a := h
    obtain ⟨st, hst, ha⟩ := Option.bind_eq_some_iff.mp h
    exact installAccess_needs hst ha
  | retire =>
    have h : s.retireQueue.head?.map (retireAccess s) = some a := h
    obtain ⟨i, hi, rfl⟩ := Option.map_eq_some_iff.mp h
    obtain ⟨rest, hq⟩ := List.head?_eq_some_iff.mp hi
    refine ⟨hclaim.2, ?_⟩
    rw [hclaim.1]
    exact ⟨i, rest, hq, writeOrBack_verifies _ _ _ _⟩
  | recovery =>
    have h : (if s.mode = .starting then recoveryAccess s else none) = some a := h
    split at h
    next hm => exact recoveryAccess_needs hm h
    next => cases h

/-! ### The steps that begin an access -/

/-- LOAD's beginning leaves the Port, the mode, the access and the pointer. -/
theorem loadBegin_keeps (u : State) : (loadBegin u).port = u.port ∧ (loadBegin u).mode = u.mode
    ∧ (loadBegin u).memPort.access = u.memPort.access ∧ (loadBegin u).memPort.pointer = u.memPort.pointer := by
  unfold loadBegin
  split <;> exact ⟨rfl, rfl, rfl, rfl⟩

/-- With no cycle waiting a step ends with one grant decision. -/
theorem settleStep_noWaiting {b : Bool} {u : State} (hw : u.port.waiting = none) :
    settleStep b u = arbitrate b (loadBegin u) := by
  have hport : (arbitrate b (loadBegin u)).port = u.port := (arbitrate_granted b _).port.trans (loadBegin_keeps u).1
  unfold settleStep
  dsimp only
  rw [hport, hw]
  cases u.port.state <;> rfl

/-- The Memory Port idle and no cycle waiting before it, a step's end begins only what the state has come to. -/
theorem settleStep_needs {b : Bool} {u : State} (ha : u.memPort.access = none) (hw : u.port.waiting = none) {a : Access}
    (h : (settleStep b u).memPort.access = some a) : (settleStep b u).Needs a := by
  rw [settleStep_noWaiting hw] at h ⊢
  have hg := arbitrate_granted b (loadBegin u)
  have hidle : (loadBegin u).memPort.access = none := by
    obtain ⟨-, -, hload, -⟩ := loadBegin_keeps u
    exact hload.trans ha
  have hgranted : ∃ c, (arbitrate b (loadBegin u)).memPort.access = accessOf (loadBegin u) c := by
    cases hs : (loadBegin u).memPort.stopped with
    | true => rw [hg.held hs, hidle] at h; cases h
    | false =>
      by_cases hn : (loadBegin u).standing = []
      · rw [hg.idle hidle hs hn] at h; cases h
      · obtain ⟨c, -, hc⟩ := hg.begun hidle hs hn
        exact ⟨c, hc⟩
  obtain ⟨c, hc⟩ := hgranted
  refine accessOf_needs (c := c) ?_
  rw [hg.only, accessOf_memPort, ← hc, h]

/-- From an idle Memory Port with no cycle waiting, only accesses begin that the state has come to. -/
def BeginsNeeded (s t : State) : Prop :=
  s.memPort.access = none → s.port.waiting = none → ∀ a, t.memPort.access = some a → t.Needs a

theorem BeginsNeeded.of_idle {s t : State} (h : s.memPort.access = none → t.memPort.access = none) : BeginsNeeded s t := by
  intro ha _ a hta
  rw [h ha] at hta
  cases hta

theorem BeginsNeeded.of_settleStep {s u : State} {b : Bool} (ha : s.memPort.access = none → u.memPort.access = none)
    (hw : s.port.waiting = none → u.port.waiting = none) : BeginsNeeded s (settleStep b u) :=
  fun h hn _ hta => settleStep_needs (ha h) (hw hn) hta

theorem BeginsNeeded.of_link {s u t : State} (h : BeginsNeeded u t) (hu : LinkOnly s u) : BeginsNeeded s t := by
  obtain ⟨l, rfl, -⟩ := hu
  exact h

theorem WorkFrame.beginsNeeded {s u : State} (h : WorkFrame s u) (b : Bool) : BeginsNeeded s (settleStep b u) :=
  .of_settleStep (fun ha => h.access.trans ha) h.noWaiting

theorem stoppedPort_waiting (s : State) : (stoppedPort s).waiting = s.port.waiting := by
  unfold stoppedPort
  repeat' split
  all_goals rfl

theorem enterStarting_beginsNeeded {k : StartKind} {s : State} (b : Bool) : BeginsNeeded s (settleStep b (enterStarting k s)) :=
  .of_settleStep (fun ha => stoppedAccess_none ha) fun hw => (stoppedPort_waiting s).trans hw

theorem RequestEffect.beginsNeeded {s t : State} (h : RequestEffect s t) : BeginsNeeded s t := by
  cases h with
  | installed => exact .of_settleStep id id
  | aborted =>
    intro ha hw
    exact (abortUpdate_frame _ _ _).beginsNeeded false (by exact ha) (by exact hw)
  | restarted =>
    intro ha hw
    exact enterStarting_beginsNeeded false (by exact ha) (by exact hw)
  | _ => exact .of_idle id

theorem tickBody_beginsNeeded (s : State) : BeginsNeeded s (settleStep false (tickBody s)) := by
  obtain ⟨r, -, he, -⟩ | ⟨-, he⟩ | he := tickBody_cases s <;> rw [he]
  · exact .of_settleStep id id
  · exact (tickDomains_frame s).beginsNeeded false
  · exact .of_settleStep id id

/-- A command that completes no access begins only what the state has come to. -/
theorem CommandEffect.beginsNeeded {c : Instr} {s t : State} (h : CommandEffect c s t) (hc : completionFlaw c = none) :
    BeginsNeeded s t := by
  cases h with
  | same => exact .of_idle id
  | poweredUp => exact .of_idle fun _ => rfl
  | supplyLost => exact .of_idle fun _ => rfl
  | ticked => exact tickBody_beginsNeeded s
  | resetFell straps =>
    obtain ⟨-, he⟩ | ⟨-, -, he⟩ | ⟨-, -, he⟩ | ⟨-, -, -, he⟩ := resetFalls_cases (showStraps straps s) <;> rw [he]
    · exact .of_idle id
    · exact .of_idle id
    · exact .of_idle id
    · exact .of_idle fun ha => stoppedAccess_none ha
  | resetRose straps =>
    obtain ⟨-, he⟩ | ⟨-, he⟩ := resetRises_cases (showStraps straps s) <;> rw [he]
    · exact .of_settleStep id id
    · exact .of_idle id
  | pfwFell straps =>
    obtain ⟨-, he⟩ | ⟨-, -, he⟩ | ⟨-, -, he⟩ := pfwFalls_cases (showStraps straps s) <;> rw [he]
    all_goals exact .of_idle id
  | pfwRose straps =>
    obtain ⟨-, he⟩ | ⟨-, -, he⟩ | ⟨-, -, -, he⟩ | ⟨-, -, -, he⟩ := pfwRises_cases (showStraps straps s) <;> rw [he]
    · exact .of_idle id
    · exact .of_idle id
    · exact enterStarting_beginsNeeded (s := resetClears { showStraps straps s with pfwAsserted := false, resetTaken := true }) false
    · exact enterStarting_beginsNeeded (s := { showStraps straps s with pfwAsserted := false }) false
  | cycled b =>
    unfold busCycle
    split
    next => exact (arrive_frame s b).beginsNeeded false
    next => exact .of_idle id
  | cycleEnded =>
    obtain he | he | ⟨-, he | he⟩ := endCycle_cases s <;> rw [he]
    · exact .of_settleStep id id
    all_goals exact .of_idle id
  | completed flaw a ha hf => rw [hc] at hf; cases hf
  | framed u h => exact .of_link (.of_idle id) h
  | requested u t h ht => exact ht.beginsNeeded.of_link h

end Sys2Proof.Machine
end

section
/-! Completions of accesses and the grant decision that follows them (R103, R107, R109, R112). -/

namespace Sys2Proof.Machine

/-! ### The completion commands (log 6) -/

theorem liveFor_ne_host {a : Access} {c : Claimant} {b : Bool} (hc : c ≠ .host) (h : (a.liveFor c && b) = true) :
    a.claimant ≠ .host := by
  intro ha
  rw [Access.liveFor, ha, decide_eq_false (fun he => hc he.symm)] at h
  cases h

/-- Every completion command completes the access in progress when it meets the command's condition. -/
theorem exec_completeWhen {c : Instr} {f : Option Word} (s : State) (h : completionFlaw c = some f) :
    ∃ p : Access → Bool, exec c s = answer (completeWhen p f) s
      ∧ ((∀ g, c ≠ .hostAccessComplete g) → ∀ a, p a = true → a.claimant ≠ .host) := by
  cases c with
  | hostAccessComplete g => cases h; exact ⟨_, rfl, fun hne => absurd rfl (hne f)⟩
  | memoryAccessComplete g => cases h; exact ⟨_, rfl, fun _ _ => of_decide_eq_true⟩
  | copyComplete g => cases h; exact ⟨_, rfl, fun _ _ => liveFor_ne_host Claimant.noConfusion⟩
  | epochWriteComplete g => cases h; exact ⟨_, rfl, fun _ _ => liveFor_ne_host Claimant.noConfusion⟩
  | retireComplete g => cases h; exact ⟨_, rfl, fun _ _ => liveFor_ne_host Claimant.noConfusion⟩
  | restoreSlotComplete g =>
    cases h
    refine ⟨_, rfl, fun _ a ha => ?_⟩
    obtain ⟨d, -, hd⟩ := List.any_eq_true.mp ha
    exact liveFor_ne_host Claimant.noConfusion hd
  | loadComplete g => cases h; exact ⟨_, rfl, fun _ _ => liveFor_ne_host Claimant.noConfusion⟩
  | scanSlotJudged g => cases h; exact ⟨_, rfl, fun _ _ => liveFor_ne_host Claimant.noConfusion⟩
  | recoveryRestoreComplete g => cases h; exact ⟨_, rfl, fun _ _ => liveFor_ne_host Claimant.noConfusion⟩
  | installTagsComplete g => cases h; exact ⟨_, rfl, fun _ _ => liveFor_ne_host Claimant.noConfusion⟩
  | installCopyComplete g => cases h; exact ⟨_, rfl, fun _ _ => liveFor_ne_host Claimant.noConfusion⟩
  | installEpochsComplete g => cases h; exact ⟨_, rfl, fun _ _ => liveFor_ne_host Claimant.noConfusion⟩
  | _ => cases h

/-- A completion command does nothing, or completes the access in progress. -/
theorem exec_completion {c : Instr} {f : Option Word} (s : State) (h : completionFlaw c = some f) :
    exec c s = .next s ∨ ∃ a, s.powered = true ∧ s.memPort.access = some a ∧ exec c s = .next (completeAccess f a s)
      ∧ ((∀ g, c ≠ .hostAccessComplete g) → a.claimant ≠ .host) := by
  obtain ⟨p, he, hne⟩ := exec_completeWhen s h
  by_cases hp : s.powered = true
  · rw [he, answer_powered hp]
    cases ha : s.memPort.access with
    | none =>
      left
      rw [completeWhen, ha]
    | some a =>
      by_cases hpa : p a = true
      · exact .inr ⟨a, hp, rfl, congrArg _ (completeWhen_some ha hpa), fun hc => hne hc a hpa⟩
      · left
        rw [completeWhen, ha]
        exact congrArg _ (if_neg hpa)
  · left
    rw [he, answer, if_neg hp]

/-! ### What a completion leaves of the Memory Port -/

/-- What the grant decision finds after an access is over: the Memory Port idle, the pointer where it was, or, after an entry
into STARTING, at INSTALL (R109). -/
structure KeepsPointer (s t : State) : Prop where
  access : s.memPort.access = none → t.memPort.access = none
  pointer : s.ClaimantsFit → t.memPort.pointer = if s.mode ≠ .starting ∧ t.mode = .starting then 4 else s.memPort.pointer
  noWaiting : s.port.waiting = none → t.port.waiting = none

theorem KeepsPointer.of_mode {s t : State} (ha : t.memPort.access = s.memPort.access)
    (hp : t.memPort.pointer = s.memPort.pointer) (hw : s.port.waiting = none → t.port.waiting = none)
    (hm : t.mode = .starting → s.mode = .starting) : KeepsPointer s t :=
  ⟨fun h => ha.trans h, fun _ => by rw [if_neg fun h => h.1 (hm h.2)]; exact hp, hw⟩

theorem RecoveryFrame.keepsPointer {s t : State} (h : RecoveryFrame s t) : KeepsPointer s t := by
  refine .of_mode h.access h.pointer h.noWaiting fun hm => ?_
  obtain he | ⟨-, he | he⟩ := h.mode
  · exact he.symm.trans hm
  · rw [hm] at he; cases he
  · rw [hm] at he; cases he

theorem installTakes_keepsPointer (s : State) (data : Word) : KeepsPointer s (installTakes data s) := by
  obtain he | ⟨st, st', -, he, -⟩ | ⟨st, st', hst, he, hr⟩ | ⟨st, hst, he⟩ := installTakes_cases s data <;> rw [he]
  · exact .of_mode rfl rfl id id
  · exact .of_mode rfl rfl id id
  · have hframe := endHold_frame (s.adopted st')
    rw [adopt_eq]
    refine ⟨fun ha => hframe.access.trans ha, fun ⟨_, hinstall, _⟩ => ?_, hframe.noWaiting⟩
    refine hframe.pointer.trans (if_neg fun h => ?_).symm
    have hreturn : st'.returnMode = .starting := hframe.mode.symm.trans h.2
    rw [hr] at hreturn
    obtain h | h := (hinstall st hst).2 <;> rw [h] at hreturn <;> cases hreturn
  · rw [installFault_eq]
    refine ⟨fun ha => stoppedAccess_none ha, fun ⟨_, hinstall, _⟩ => ?_, fun hw => (stoppedPort_waiting _).trans hw⟩
    have hns : s.mode ≠ .starting := by
      obtain h | h := (hinstall st hst).1 <;> rw [h] <;> exact Mode.noConfusion
    exact (if_pos ⟨hns, rfl⟩).symm

theorem deliverFrozen_keepsPointer {s : State} (hm : s.mode = .frozen) (c : Claimant) (data : Word) :
    KeepsPointer s (deliverFrozen c data s) := by
  obtain ⟨-, he⟩ | ⟨k, he⟩ | ⟨k, he⟩ | ⟨d, st, he⟩ | ⟨i, he⟩ | ⟨b, he⟩ | ⟨-, r, he⟩ := deliverFrozen_cases s c data hm <;> rw [he]
  · exact (hostTakes_frame s data).recoveryFrame.keepsPointer
  all_goals exact .of_mode rfl rfl id id

theorem handOver_keepsPointer (s : State) (a : Access) (data : Word) :
    KeepsPointer s (handOver a data s) := by
  unfold handOver
  split
  next => exact .of_mode rfl rfl id id
  next =>
    split
    next hm => exact deliverFrozen_keepsPointer hm _ _
    next =>
      unfold deliver
      split
      next => exact (hostTakes_frame s data).recoveryFrame.keepsPointer
      next => exact (copyTakes_frame s data).recoveryFrame.keepsPointer
      next => exact (commitTakes_frame s data).recoveryFrame.keepsPointer
      next => exact (restoreTakes_frame s _ data).recoveryFrame.keepsPointer
      next => exact installTakes_keepsPointer s data
      next => exact (retireTakes_frame s data).recoveryFrame.keepsPointer
      next => exact (recoveryTakes_recoveryFrame s data).keepsPointer

/-- Settles O9: the claims are the ready claimants; a begun access is one of theirs in the state at the step's end. -/
theorem newAccessesFollowTheState : Obligations.NewAccessesFollowTheState := by
  refine ⟨mem_standing_iff_ready, fun c s t a h hw hbegun hta => ?_⟩
  cases hc : completionFlaw c with
  | none =>
    obtain ha | ⟨hflaw, -⟩ := hbegun
    · exact (exec_cases c s t h).beginsNeeded hc ha hw a hta
    · rw [hc] at hflaw
      cases hflaw
  | some f =>
    obtain hsame | ⟨b, -, hb, he, -⟩ := exec_completion s hc <;> (rw [h] at *)
    · have hts : t = s := by injection hsame
      obtain ha | ⟨-, hne⟩ := hbegun
      · rw [hts, ha] at hta
        cases hta
      · exact absurd hts hne
    · have hts : t = completeAccess f b s := by injection he
      rw [hts] at hta ⊢
      have hkeeps := handOver_keepsPointer (finishAccess f b s) b (accessData f s.memory b)
      exact settleStep_needs (hkeeps.access rfl) (hkeeps.noWaiting hw) hta

/-! ### The grant decision -/

/-- The order in which a grant decision looks at the claims (R107, R109, R110). -/
def grantOrder (boost : Bool) (pointer : Fin 5) : List Claimant :=
  [.host, .recovery, .copy, .commit] ++ (if boost then [.retire] else []) ++ (roundRobin pointer).map positionClaimant ++ [.retire]

theorem bestClaim_eq (s : State) : bestClaim s = (grantOrder s.memPort.boost s.memPort.pointer).find? s.claims := rfl

/-- The order is the one of the ranks. -/
theorem grantOrder_rank : ∀ (boost : Bool) (pointer : Fin 5), ∀ c ∈ claimants, ∀ e ∈ claimants,
    grantRank boost pointer c ≤ grantRank boost pointer e →
      (grantOrder boost pointer).idxOf c ≤ (grantOrder boost pointer).idxOf e := by
  decide

theorem grantOrder_injective : ∀ (boost : Bool) (pointer : Fin 5), ∀ c ∈ claimants, ∀ e ∈ claimants,
    (grantOrder boost pointer).idxOf c = (grantOrder boost pointer).idxOf e → c = e := by
  decide

theorem idxOf_find?_le {α : Type} [DecidableEq α] {l : List α} {p : α → Bool} {e c : α} (h : l.find? p = some e)
    (hc : p c = true) : l.idxOf e ≤ l.idxOf c := by
  obtain ⟨-, as, bs, rfl, hno⟩ := List.find?_eq_some_iff_append.mp h
  have hnot : c ∉ as := fun hm => by simpa [hc] using hno c hm
  rw [List.idxOf_append_of_notMem hnot]
  by_cases he : e ∈ as
  · rw [List.idxOf_append_of_mem he]
    exact (List.idxOf_lt_length_of_mem he).le.trans (Nat.le_add_right _ _)
  · rw [List.idxOf_append_of_notMem he, List.idxOf_cons_self]
    exact Nat.add_le_add_left (Nat.zero_le _) _

/-- The claim granted at a completion is the one of least rank (R107). -/
theorem bestClaim_of_least {s : State} {c : Claimant} (hc : c ∈ s.standing)
    (hleast : ∀ e ∈ s.standing, grantRank s.memPort.boost s.memPort.pointer c ≤ grantRank s.memPort.boost s.memPort.pointer e) :
    bestClaim s = some c := by
  cases hb : bestClaim s with
  | none => rw [bestClaim_none s hb] at hc; cases hc
  | some e =>
    have he := bestClaim_mem s e hb
    have hlast := grantOrder_rank _ _ c (mem_claimants c) e (mem_claimants e) (hleast e he)
    have hfirst := idxOf_find?_le (bestClaim_eq s ▸ hb) (c := c) ((mem_standing s c).mp hc)
    rw [grantOrder_injective _ _ c (mem_claimants c) e (mem_claimants e) (le_antisymm hlast hfirst)]

theorem pointerAfter_restore (p : Fin 5) (d : Fin 4) : pointerAfter p (.restore d) = d.castSucc := by
  fin_cases d <;> rfl

theorem standing_memPort (u : State) (p : MemPort) (n : Nat) : ({ u with memPort := p, arrivals := n } : State).standing = u.standing :=
  List.filter_congr fun c _ => by rw [State.claims, State.claims, accessOf_memPort]

theorem arbitrate_stopped (b : Bool) {u : State} (hs : u.memPort.stopped = true) : arbitrate b u = u :=
  arbitrate_of_settled b fun _ h => by rw [hs] at h; cases h

/-- Settles O18: the completion leaves the pointer and the port idle; then the least rank is granted. -/
theorem arbiterGrantsTheHighestRank : Obligations.ArbiterGrantsTheHighestRank := by
  refine ⟨fun f s t a hp ha hw hfit hexec => ?_, fun c f s hc hne => ?_⟩
  · have ht : t = completeAccess f a s := by
      split at hexec
      next hc => rw [exec_hostAccessComplete hp ha hc] at hexec; injection hexec with h; exact h.symm
      next hc => rw [exec_memoryAccessComplete hp ha hc] at hexec; injection hexec with h; exact h.symm
    obtain ⟨haccess, hpointer, hwaiting⟩ := handOver_keepsPointer (finishAccess f a s) a (accessData f s.memory a)
    have hfinished : (finishAccess f a s).ClaimantsFit := by
      obtain ⟨-, hinstall, hfrozen⟩ := hfit
      exact ⟨fun b hb => (by cases hb), hinstall, hfrozen⟩
    rw [completeAccess, settleStep_noWaiting (hwaiting hw)] at ht
    obtain ⟨-, hmode, hidle, hstays⟩ := loadBegin_keeps (handOver a (accessData f s.memory a) (finishAccess f a s))
    generalize loadBegin (handOver a (accessData f s.memory a) (finishAccess f a s)) = v at ht hmode hidle hstays
    have hnone : v.memPort.access = none := hidle.trans (haccess rfl)
    have htmode : t.mode = v.mode := by rw [ht, (arbitrate_granted true v).only]
    have hpoint : v.memPort.pointer = if s.mode ≠ .starting ∧ t.mode = .starting then 4 else s.memPort.pointer := by
      rw [hstays, hpointer hfinished, htmode, hmode]
      rfl
    have hstopped : t.memPort.stopped = v.memPort.stopped := by rw [ht, (arbitrate_granted true v).only]
    have hboost : t.memPort.boost = v.memPort.boost := by rw [ht, (arbitrate_granted true v).only]
    have hstanding : t.standing = v.standing := by rw [ht, (arbitrate_granted true v).only, standing_memPort]
    dsimp only
    refine ⟨fun hs => ?_, fun hs hnil => ?_, fun c hc hs hleast => ?_⟩
    · rw [show t.memPort = v.memPort by rw [ht, arbitrate_stopped true (hstopped.symm.trans hs)]]
      exact ⟨hnone, hpoint⟩
    · rw [show t.memPort = v.memPort by rw [ht, arbitrate_of_settled true fun _ _ => hstanding.symm.trans hnil]]
      exact ⟨hnone, hpoint⟩
    · rw [hstanding] at hc hleast
      rw [hboost, ← hpoint] at hleast
      have hgrant := arbitrate_completion v c hnone (hstopped.symm.trans hs) (bestClaim_of_least hc hleast)
      have haccessOf : accessOf t c = accessOf v c := by rw [ht, (arbitrate_granted true v).only, accessOf_memPort]
      rw [haccessOf, ← hpoint, ht, hgrant]
      refine ⟨rfl, ?_⟩
      cases c with
      | restore d => exact pointerAfter_restore _ d
      | _ => rfl
  · obtain he | ⟨a, hp, ha, he, hclaimant⟩ := exec_completion s hc
    · exact .inl he
    · exact .inr (he.trans (exec_memoryAccessComplete hp ha (hclaimant hne) f).symm)

end Sys2Proof.Machine
end

section
/-! Completions of the host's, the copy's and the commit's accesses that go on (R30, R57, R58, R64, R66, R94). -/

namespace Sys2Proof.Machine

/-! ### The step's end after a completion -/

/-- Outside LOAD's beginning and with no cycle waiting a completion ends with one grant decision. -/
theorem settleStep_plain {b : Bool} {u : State} (hl : u.loadReady = false) (hw : u.NoCycleWaits) :
    settleStep b u = arbitrate b u := by
  have hport : (arbitrate b u).port = u.port := (arbitrate_granted b u).port
  unfold settleStep
  rw [loadBegin_eq u hl]
  dsimp only
  rw [hport]
  split
  next hv hc => rw [hw hv] at hc; cases hc
  next => rfl

/-- The claim of highest rank begins its access at a completion. -/
theorem settleStep_grants {u : State} {c : Claimant} {a : Access} (hl : u.loadReady = false) (hw : u.NoCycleWaits)
    (ha : u.memPort.access = none) (hs : u.memPort.stopped = false) (hc : bestClaim u = some c) (hacc : accessOf u c = some a) :
    (settleStep true u).memPort.access = some a := by
  rw [settleStep_plain hl hw, arbitrate_completion u c ha hs hc]
  exact hacc

theorem claims_iff_ready (s : State) (c : Claimant) : s.claims c = true ↔ s.Ready c :=
  (mem_standing s c).symm.trans (mem_standing_iff_ready s c)

theorem recovery_not_ready {s : State} (hm : s.mode ≠ .starting) : ¬ s.Ready .recovery := fun h => hm h.1

theorem host_not_ready {s : State} {g : WriteStage} (hst : s.port.state = .deciding) (hg : s.port.stage = g) (h1 : g ≠ .store)
    (h2 : g ≠ .commitStore) : ¬ s.Ready .host := by
  rintro (hr | ⟨-, hr | hr⟩)
  · rw [hst] at hr
    cases hr
  · exact h1 (hg.symm.trans hr)
  · exact h2 (hg.symm.trans hr)

/-- With the host and the recovery not ready the copy goes first (R107). -/
theorem bestClaim_copy {s : State} (hh : ¬ s.Ready .host) (hm : s.mode ≠ .starting) (hc : s.copy ≠ none) :
    bestClaim s = some .copy := by
  have horder : grantOrder s.memPort.boost s.memPort.pointer = .host :: .recovery :: .copy ::
    ((.commit :: if s.memPort.boost then [.retire] else []) ++ (roundRobin s.memPort.pointer).map positionClaimant ++ [.retire]) := rfl
  rw [bestClaim_eq, horder, List.find?_cons_of_neg (by rw [claims_iff_ready]; exact hh),
    List.find?_cons_of_neg (by rw [claims_iff_ready]; exact recovery_not_ready hm),
    List.find?_cons_of_pos ((claims_iff_ready s .copy).mpr hc)]

/-- With the host, the recovery and the copy not ready the commit goes first (R107). -/
theorem bestClaim_commit {s : State} (hh : ¬ s.Ready .host) (hm : s.mode ≠ .starting) (hcopy : s.copy = none)
    (hc : s.commit ≠ none) : bestClaim s = some .commit := by
  have horder : grantOrder s.memPort.boost s.memPort.pointer = .host :: .recovery :: .copy :: .commit ::
    ((if s.memPort.boost then [.retire] else []) ++ (roundRobin s.memPort.pointer).map positionClaimant ++ [.retire]) := rfl
  rw [bestClaim_eq, horder, List.find?_cons_of_neg (by rw [claims_iff_ready]; exact hh),
    List.find?_cons_of_neg (by rw [claims_iff_ready]; exact recovery_not_ready hm),
    List.find?_cons_of_neg (by rw [claims_iff_ready]; exact fun h => h hcopy),
    List.find?_cons_of_pos ((claims_iff_ready s .commit).mpr hc)]

/-! ### The host's access (R64, R66) -/

/-- The host's access completes in every mode alike. -/
theorem exec_hostAccessComplete_eq {s : State} {a : Access} (h : s.InProgress .host a) (f : Option Word) :
    exec (.hostAccessComplete f) s = .next (settleStep true (hostTakes (accessData f s.memory a) (s.completed f a))) := by
  obtain ⟨hp, ha, hc, ho⟩ := h
  rw [exec_hostAccessComplete hp ha hc, completeAccess, handOver, if_neg (by rw [ho]; decide), finishAccess_eq, hc]
  split <;> rfl

theorem hostTakes_read {s : State} (hst : s.port.state = .atMemory) (hw : s.port.cycle.write = false) (data : Word) :
    hostTakes data s = { s with port := { s.port with
      state := if s.port.early then .vacant else .closing
      cycle := { s.port.cycle with data := data }
      stage := .none, early := false } } := by
  unfold hostTakes
  rw [hst]
  exact if_neg (by rw [hw]; decide)

theorem hostTakes_write {s : State} (hst : s.port.state = .atMemory) (hw : s.port.cycle.write = true) (data : Word) :
    hostTakes data s = { s with port := { s.port with
      state := if s.port.early then .vacant else .closing, stage := .none, early := false } } := by
  unfold hostTakes
  rw [hst]
  exact if_pos hw

theorem hostTakes_store {s : State} (hst : s.port.state = .deciding) (hg : s.port.stage = .store) (data : Word) :
    hostTakes data s = { s with port := s.port.ended .pass } := by
  unfold hostTakes
  rw [hst, hg]
  rfl

theorem journalHit_eq {s : State} {h : Hit} (hst : s.port.state = .deciding) (hd : s.port.disp = some .journal)
    (hc : s.port.cls = some (.hit h)) : s.journalHit = some h := by
  unfold State.journalHit
  rw [if_pos ⟨hst, hd⟩, hc]

theorem hostTakes_commitStore {s : State} {h : Hit} (hst : s.port.state = .deciding) (hg : s.port.stage = .commitStore)
    (hd : s.port.disp = some .journal) (hc : s.port.cls = some (.hit h)) (data : Word) :
    hostTakes data s = { s with
      port := { s.port with stage := .epochWrite }
      commit := some { domain := h.domain, back := false } } := by
  unfold hostTakes
  rw [hst, hg, journalHit_eq hst hd hc]
  rfl

/-- The Port of an access that has just ended is vacant only when no cycle waits. -/
theorem HostPort.closed_waiting {p : HostPort} (h : p.NoneFollows) :
    (if p.early then PortState.vacant else .closing) = .vacant → p.waiting = none := by
  cases he : p.early with
  | true => exact fun _ => h he
  | false => intro hv; cases hv

/-- Settles O50: the word to the Port by its state and stage; after a commit's store the commit stream goes first. -/
theorem hostAccessCompletes : Obligations.HostAccessCompletes := by
  intro s f a hin hm hfollows
  have hexec := exec_hostAccessComplete_eq hin f
  have hl : ∀ {p : HostPort} {k : Option CommitStream}, ({ s.completed f a with port := p, commit := k } : State).loadReady = false :=
    loadReady_of_mode _ hm
  refine ⟨fun hst hw har => ?_, fun hst hw haw => ?_, fun hst hg haw => ?_, fun h hst hg hd hc haw => ?_⟩
  · rw [hostTakes_read (s := s.completed f a) hst hw, accessData_of_read har] at hexec
    obtain ⟨t, ht, -, hg⟩ := exec_granted hexec hl (HostPort.closed_waiting hfollows)
    refine ⟨t, ht, hg, fun he => ?_⟩
    rw [State.dataDriven, hg.port]
    exact if_pos ⟨if_neg (Bool.eq_false_iff.mp he), hw⟩
  · rw [hostTakes_write (s := s.completed f a) hst hw] at hexec
    obtain ⟨t, ht, -, hg⟩ := exec_granted hexec hl (HostPort.closed_waiting hfollows)
    exact ⟨t, ht, hg⟩
  · rw [hostTakes_store (s := s.completed f a) hst hg] at hexec
    obtain ⟨t, ht, -, hg⟩ := exec_granted hexec hl (HostPort.closed_waiting hfollows)
    exact ⟨t, ht, hg⟩
  · rw [hostTakes_commitStore (s := s.completed f a) hst hg hd hc] at hexec
    have hnw : ({ s.completed f a with
        port := { s.port with stage := .epochWrite }
        commit := some { domain := h.domain, back := false } } : State).NoCycleWaits := by
      intro hv
      exact PortState.noConfusion (hst.symm.trans hv)
    refine ⟨_, hexec, settleStep_granted true _ hl hnw, fun hs hcopy => ?_⟩
    exact settleStep_grants hl hnw rfl hs (bestClaim_commit
      (host_not_ready (by exact hst) rfl WriteStage.noConfusion WriteStage.noConfusion) hm hcopy (Option.some_ne_none _)) rfl

/-! ### The copy stream (R57, R58, R94) -/

/-- A copy that goes on hands its word to its own record alone, in every mode. -/
theorem exec_copy_goesOn {s : State} {f : Option Word} {a : Access} {c c' : CopyStream} (h : s.InProgress .copy a)
    (hc : s.copy = some c) (hn : copyNext s c (accessData f s.memory a) = .more c') :
    exec (.memoryAccessComplete f) s = .next (settleStep true { s.completed f a with copy := some c' }) := by
  obtain ⟨hp, ha, hclaim, ho⟩ := h
  have hnext : copyNext (s.completed f a) c (accessData f s.memory a) = .more c' := hn
  have htakes : copyTakes (accessData f s.memory a) (s.completed f a) = { s.completed f a with copy := some c' } := by
    unfold copyTakes
    rw [show (s.completed f a).copy = some c from hc]
    dsimp only
    rw [hnext]
  have hfrozen : deliverFrozen .copy (accessData f s.memory a) (s.completed f a) = { s.completed f a with copy := some c' } := by
    unfold deliverFrozen
    dsimp only
    rw [show (s.completed f a).copy = some c from hc]
    dsimp only
    rw [hnext]
  rw [exec_memoryAccessComplete hp ha (by rw [hclaim]; exact Claimant.noConfusion), completeAccess, handOver,
    if_neg (by rw [ho]; decide), finishAccess_eq, hclaim]
  split
  next => rw [hfrozen]
  next => rw [deliver, htakes]

theorem copyNext_read {s : State} {c : CopyStream} {k : Nat} {data : Word} (hp : c.pos = .read k)
    (h : (s.slotRegion c.slot).kind ≠ .once ∨ data = 0xFFFF) :
    copyNext s c data = .more { c with pos := .image k data, back := false } := by
  unfold copyNext
  rw [hp]
  refine if_neg fun ⟨ho, hne⟩ => ?_
  obtain h | h := h
  · exact h ho
  · exact hne h

/-- The copy has come to a word that it writes, not to one it reads. -/
def CopyStream.Writes (c : CopyStream) : Prop := ∀ k, c.pos ≠ .read k

theorem copyNext_writes {s : State} {c : CopyStream} {data : Word} (hw : c.Writes) :
    copyNext s c data =
      if c.back then if data = copyValue s c then copyAdvance (s.slotRegion c.slot).size c else .fault (copyAddr s c)
      else if s.layout.verify then .more { c with back := true }
      else copyAdvance (s.slotRegion c.slot).size c := by
  unfold copyNext
  split
  next k hk => exact absurd hk (hw k)
  next => rfl

theorem copyNext_back {s : State} {c : CopyStream} {data : Word} (hw : c.Writes) (hv : s.layout.verify = true)
    (hb : c.back = false) : copyNext s c data = .more { c with back := true } := by
  rw [copyNext_writes hw, hb, hv]
  rfl

theorem copyNext_done {s : State} {c : CopyStream} {data : Word} (hw : c.Writes)
    (h : s.layout.verify = false ∧ c.back = false ∨ s.layout.verify = true ∧ c.back = true ∧ data = copyValue s c) :
    copyNext s c data = copyAdvance (s.slotRegion c.slot).size c := by
  rw [copyNext_writes hw]
  obtain ⟨hv, hb⟩ | ⟨-, hb, hd⟩ := h
  · rw [hb, hv]
    rfl
  · rw [hb, if_pos rfl, if_pos hd]

theorem copyNext_fails {s : State} {c : CopyStream} {data : Word} (hw : c.Writes) (hb : c.back = true)
    (hd : data ≠ copyValue s c) : copyNext s c data = .fault (copyAddr s c) := by
  rw [copyNext_writes hw, hb, if_pos rfl, if_neg hd]

theorem copyAdvance_image {n i k : Nat} {w sum : Word} {back : Bool} (hk : k + 1 < n) :
    copyAdvance n { slot := i, pos := .image k w, back := back, sum := sum } =
      .more { slot := i, pos := .read (k + 1), back := false, sum := sum + w } := by
  unfold copyAdvance
  dsimp only
  rw [if_pos hk]

theorem copyAdvance_image_last {n i k : Nat} {w sum : Word} {back : Bool} (hk : n ≤ k + 1) :
    copyAdvance n { slot := i, pos := .image k w, back := back, sum := sum } =
      .more { slot := i, pos := .epoch, back := false, sum := sum + w } := by
  unfold copyAdvance
  dsimp only
  rw [if_neg (Nat.not_lt.mpr hk)]

/-- Settles O51: each position's next one, and the access it brings at the address shown. -/
theorem copyStreamWorksWordByWord : Obligations.CopyStreamWorksWordByWord := by
  intro s f a hm hw
  refine ⟨fun c hin hc => ?_, fun hp ha ho hclaim => ?_⟩
  · dsimp only
    have goesTo : ∀ {c' : CopyStream} {next : Access}, copyNext s c (accessData f s.memory a) = .more c' →
        copyAccess s c' = next → ∃ t, exec (.memoryAccessComplete f) s = .next t
          ∧ Granted { s.completed f a with copy := some c' } t
          ∧ (s.port.state = .deciding → s.port.stage = .copy → s.memPort.stopped = false → t.memPort.access = some next) := by
      intro c' next hnext hacc
      have hl : ({ s.completed f a with copy := some c' } : State).loadReady = false := loadReady_of_mode _ hm
      refine ⟨_, exec_copy_goesOn hin hc hnext, settleStep_granted true _ hl hw, fun hst hg hs => ?_⟩
      exact settleStep_grants hl hw rfl hs (bestClaim_copy
        (host_not_ready (by exact hst) hg WriteStage.noConfusion WriteStage.noConfusion) hm (Option.some_ne_none _))
        (congrArg some hacc)
    have advances : ∀ {c' : CopyStream} {w : Word}, c.Writes → copyValue s c = w → s.WordDone s.layout.verify c.back f a w →
        copyAdvance (s.slotRegion c.slot).size c = .more c' → copyNext s c (accessData f s.memory a) = .more c' := by
      rintro c' w hwrites rfl hdone hadv
      exact (copyNext_done hwrites (wordDone_data hdone)).trans hadv
    obtain ⟨i, pos, back, sum⟩ := c
    refine ⟨fun k hp har hblank => ?_, fun hv hb haw => ?_, fun k w hp hdone => ?_, fun hp hdone => ?_, fun hp hdone => ?_,
      fun hp hdone => ?_⟩
    · rw [← accessData_of_read har] at hblank ⊢
      obtain rfl : pos = .read k := hp
      exact goesTo (copyNext_read rfl hblank) rfl
    · refine ⟨fun k w hp => ?_, fun hp => ?_, fun hp => ?_, fun hp => ?_, fun hp => ?_⟩
      all_goals
        cases hp
        exact goesTo (copyNext_back (fun _ h => by cases h) hv hb) rfl
    · obtain rfl : pos = .image k w := hp
      exact ⟨fun hk => goesTo (advances (fun _ h => by cases h) rfl hdone (copyAdvance_image hk)) rfl,
        fun hk => goesTo (advances (fun _ h => by cases h) rfl hdone (copyAdvance_image_last hk)) rfl⟩
    all_goals
      cases hp
      exact goesTo (advances (fun _ h => by cases h) rfl hdone rfl) rfl
  · refine ⟨_, (exec_memoryAccessComplete hp ha hclaim f).trans ?_, settleStep_granted true _ (loadReady_of_mode _ hm) hw⟩
    rw [completeAccess_orphan ho]

end Sys2Proof.Machine
end

section
/-! The ends of a commit and of a retire (R20, R24, R29, R30, R60, R94, R97, R100). -/

namespace Sys2Proof.Machine

/-! ### Completions that end a stream's work -/

theorem State.InProgress.liveFor {s : State} {c : Claimant} {a : Access} (h : s.InProgress c a) : a.liveFor c = true := by
  obtain ⟨-, -, hc, ho⟩ := h
  rw [Access.liveFor, decide_eq_true hc, ho]
  rfl

/-- Outside FROZEN a standing claimant's completed access hands its word on (R103). -/
theorem completeAccess_inProgress {s : State} {c : Claimant} {a : Access} (h : s.InProgress c a) (hm : s.mode ≠ .frozen)
    (f : Option Word) :
    completeAccess f a s = settleStep true (deliver c (accessData f s.memory a) (s.completed f a)) := by
  obtain ⟨-, -, hc, ho⟩ := h
  rw [completeAccess_live ho hm, hc]

theorem exec_memoryAccess_inProgress {s : State} {c : Claimant} {a : Access} (h : s.InProgress c a) (hc : c ≠ .host)
    (hm : s.mode ≠ .frozen) (f : Option Word) :
    exec (.memoryAccessComplete f) s = .next (settleStep true (deliver c (accessData f s.memory a) (s.completed f a))) := by
  rw [← completeAccess_inProgress h hm]
  obtain ⟨hp, ha, hclaim, -⟩ := h
  exact exec_memoryAccessComplete hp ha (hclaim ▸ hc) f

/-- A word done or read back wrong ends the write or its read-back (log 6). -/
theorem wordEnds {s : State} {verify back : Bool} {f : Option Word} {a : Access} {w : Word}
    (h : s.WordDone verify back f a w ∨ s.WordFails verify back f a w) : (!a.write || !verify) = true := by
  obtain (⟨rfl, -, -⟩ | ⟨-, -, hr, -⟩) | ⟨-, -, hr, -⟩ := h
  · exact Bool.or_true _
  · rw [hr]; rfl
  · rw [hr]; rfl

theorem exec_epochWriteComplete {s : State} {a : Access} {f : Option Word} {w : Word} {back : Bool} (h : s.InProgress .commit a)
    (hm : s.mode ≠ .frozen) (hw : s.WordDone s.layout.verify back f a w ∨ s.WordFails s.layout.verify back f a w) :
    exec (.epochWriteComplete f) s = .next (settleStep true (commitTakes (accessData f s.memory a) (s.completed f a))) := by
  have he : exec (.epochWriteComplete f) s =
    answer (completeWhen (fun a => a.liveFor .commit && (!a.write || !s.layout.verify)) f) s := rfl
  rw [he, answer_powered h.1, completeWhen_some h.2.1 (by rw [State.InProgress.liveFor h, wordEnds hw]; rfl), completeAccess_inProgress h hm]
  rfl

theorem exec_retireComplete {s : State} {a : Access} {f : Option Word} {w : Word} {back : Bool} (h : s.InProgress .retire a)
    (hm : s.mode ≠ .frozen) (hw : s.WordDone s.layout.verify back f a w ∨ s.WordFails s.layout.verify back f a w) :
    exec (.retireComplete f) s = .next (settleStep true (retireTakes (accessData f s.memory a) (s.completed f a))) := by
  have he : exec (.retireComplete f) s =
    answer (completeWhen (fun a => a.liveFor .retire && (!a.write || !s.layout.verify)) f) s := rfl
  rw [he, answer_powered h.1, completeWhen_some h.2.1 (by rw [State.InProgress.liveFor h, wordEnds hw]; rfl), completeAccess_inProgress h hm]
  rfl

/-! ### The commit (R20, R30, R100) -/

theorem filter_not_contains (l : List IndexEntry) (m : List Nat) :
    l.filter (fun e => !m.contains e.slot) = l.filter fun x => decide (x.slot ∉ m) :=
  List.filter_congr fun x _ => by simp

/-- Fourth to seventh step of the commit (R30). -/
theorem commitDone_eq (d : Fin 4) (s : State) :
    commitDone d s = { s with
      commit := none
      pool := movedPool .active .retiring (s.dom d).members s.pool
      retireQueue := s.retireQueue ++ (s.dom d).members
      slotIndex := s.slotIndex.filter fun x => decide (x.slot ∉ (s.dom d).members)
      domains := s.domains.set d { s.dom d with
        state := .idle, committed := (s.dom d).committed + 1, backlog := (s.dom d).members.length, members := [] }
      events := (record (.committed d ((s.dom d).committed + 1) (s.dom d).members.length) s).events
      port := s.port.ended .pass } := by
  unfold commitDone
  dsimp only
  rw [moveSlots_only_pool, moveSlots_pool _ _ (by decide), filter_not_contains, record_eq]
  simp only [record_events]
  rfl

/-- A media fault of the epoch write (R42, R100). -/
theorem commitFault_eq (d : Fin 4) (s : State) :
    commitFault d s = { s with
      commit := none
      pool := movedPool .active .stranded (s.dom d).members s.pool
      domains := s.domains.set d { s.dom d with state := .failed, members := [] }
      events := (record (.domainFailed d ((s.dom d).committed + 1))
        (record (.mediaFault .commit none (epochAddr s.logStart d)) s)).events
      port := s.port.ended .pass } := by
  unfold commitFault
  dsimp only
  rw [moveSlots_only_pool, moveSlots_pool _ _ (by decide), record_eq, record_eq]
  simp only [record_events, record_mask]
  rfl

/-- Settles O53: the read-back, the commit, and the fault. -/
theorem epochWriteCommits : Obligations.EpochWriteCommits := by
  intro s f a c hin hns hnf hc hfollows
  have hl : ∀ {u : State}, u.mode = s.mode → u.loadReady = false := fun h => loadReady_of_mode _ (h ▸ hns)
  have htakes : ∀ data, commitTakes data (s.completed f a) =
      if c.back then if data = (s.dom c.domain).committed + 1 then commitDone c.domain (s.completed f a)
        else commitFault c.domain (s.completed f a)
      else if s.layout.verify then { s.completed f a with commit := some { c with back := true } }
      else commitDone c.domain (s.completed f a) := by
    intro data
    unfold commitTakes
    rw [show (s.completed f a).commit = some c from hc]
    rfl
  refine ⟨fun hv hb haw hw => ?_, fun hdone => ?_, fun hfails => ?_⟩
  · have hexec := exec_memoryAccess_inProgress hin Claimant.noConfusion hnf f
    rw [deliver, htakes, hb, hv] at hexec
    obtain ⟨t, ht, -, hg⟩ := exec_granted hexec (hl rfl) hw
    exact ⟨t, ht, hg⟩
  · have hexec := exec_epochWriteComplete hin hnf (.inl hdone)
    have hcommit : commitTakes (accessData f s.memory a) (s.completed f a) = commitDone c.domain (s.completed f a) := by
      rw [htakes]
      obtain ⟨hv, hb⟩ | ⟨hv, hb, hd⟩ := wordDone_data hdone
      · rw [hb, hv]; rfl
      · rw [hb, if_pos rfl, if_pos hd]
    rw [hcommit, commitDone_eq] at hexec
    obtain ⟨t, ht, -, hg⟩ := exec_granted hexec (hl rfl) (HostPort.closed_waiting hfollows)
    refine ⟨t, ht, ?_⟩
    simp only [record_events] at hg ⊢
    exact hg
  · have hexec := exec_epochWriteComplete hin hnf (.inr hfails)
    have hcommit : commitTakes (accessData f s.memory a) (s.completed f a) = commitFault c.domain (s.completed f a) := by
      rw [htakes]
      obtain ⟨hv, hb, hd⟩ := wordFails_data hfails
      rw [hb, if_pos rfl, if_neg hd]
    rw [hcommit, commitFault_eq] at hexec
    obtain ⟨t, ht, -, hg⟩ := exec_granted hexec (hl rfl) (HostPort.closed_waiting hfollows)
    refine ⟨t, ht, ?_⟩
    simp only [record_events, record_mask] at hg ⊢
    exact hg

end Sys2Proof.Machine
end

section
/-! The end of a retire: the slot freed or BAD, and the write or the commit attempt that waited for it (R24, R29, R60, R97). -/

namespace Sys2Proof.Machine

/-- A slot after another slot, or the slot itself, has been given an entry. -/
theorem slot_set (s : State) (i j : Nat) (e : PoolEntry) :
    ({ s with pool := s.pool.set i e } : State).slot j = if i = j ∧ i < s.pool.length then e else s.slot j := by
  simp only [State.slot, List.getD_eq_getElem?_getD, List.getElem?_set]
  by_cases hij : i = j
  · subst hij
    by_cases hi : i < s.pool.length <;> simp [hi]
  · simp [hij]

/-- A slot given an entry that is not COPYING makes no slot COPYING. -/
theorem notCopying_set {s : State} {i j : Nat} {e : PoolEntry} (he : e.state ≠ .copying) (h : j ≠ i → (s.slot j).state ≠ .copying) :
    (({ s with pool := s.pool.set i e } : State).slot j).state ≠ .copying := by
  rw [slot_set]
  split
  next => exact he
  next hn =>
    by_cases hij : j = i
    · subst hij
      have hi : ¬ j < s.pool.length := fun hlt => hn ⟨rfl, hlt⟩
      simp [State.slot, List.getD_eq_getElem?_getD, hi, PoolEntry.badEntry]
    · exact h hij

/-- A state in which the head of the Retire Queue has left it with an entry (R60, R97). -/
def State.retired (s : State) (i : Nat) (rest : List Nat) (e : PoolEntry) : State := { s with
  retireQueue := rest, retireBack := false, pool := s.pool.set i e
  domains := s.domains.set (s.slot i).domain
    { s.dom (s.slot i).domain with backlog := (s.dom (s.slot i).domain).backlog - 1 } }

/-- A state in which the head of the Retire Queue has become FREE at the tail of the Free Queue (R60). -/
def State.freed (s : State) (i : Nat) (rest : List Nat) : State :=
  { s.retired i rest .freeEntry with freeQueue := s.freeQueue ++ [i] }

theorem retireLeaves_eq {s : State} {i : Nat} {rest : List Nat} (hq : s.retireQueue = i :: rest) (e : PoolEntry) :
    retireLeaves i e s = s.retired i rest e := by
  unfold retireLeaves
  rw [hq]
  rfl

theorem decideSlotAgain_idle {s : State} (h : s.port.stage ≠ .slot) : decideSlotAgain s = s := if_neg h

theorem decideBacklogAgain_idle {s : State} (h : s.port.stage ≠ .backlog) : decideBacklogAgain s = s := if_neg h

theorem decideSlotAgain_takes {s : State} {h : Hit} {i : Nat} {rest : List Nat} (hg : s.port.stage = .slot)
    (hh : s.journalHit = some h) (hf : s.freeQueue = i :: rest) : decideSlotAgain s = takeSlot h i rest s := by
  unfold decideSlotAgain
  rw [if_pos hg, hh]
  exact seekSlot_takes hf

theorem decideBacklogAgain_evaluates {s : State} {h : Hit} (hg : s.port.stage = .backlog) (hh : s.journalHit = some h)
    (hb : (s.dom h.domain).backlog = 0) : decideBacklogAgain s = evaluateGuard h s := by
  unfold decideBacklogAgain
  rw [if_pos hg, hh]
  exact if_pos hb

/-- A slot that has just been given up joins for a write, its domain's record differing from an older one in what a join does not
look at (R23, R24). -/
theorem joined_reused {v : State} {h : Hit} {i : Nat} {rest : List Nat} {r : Runtime} {b : Nat} {p : List PoolEntry}
    {e : PoolEntry} (hp : v.pool = p.set i e) (hr : v.dom h.domain = { r with backlog := b }) :
    v.joined h i rest = { v with
      freeQueue := rest
      slotIndex := v.slotIndex ++ [{ region := h.region, record := h.record, slot := i }]
      copy := some { slot := i, pos := .read 0, back := false, sum := 0 }
      domains := v.domains.set h.domain { v.dom h.domain with
        state := .opened
        timer := if r.state = .idle then (v.cfg h.domain).deadline.toNat else r.timer
        members := r.members ++ [i] }
      pool := p.set i { state := .copying, domain := h.domain, epoch := r.committed + 1, region := h.region, record := h.record } } := by
  unfold State.joined
  rw [hr, hp, List.set_set]

theorem domains_set_set {v : Vector Runtime 4} {d e : Fin 4} {q r : Runtime} (h : d = e) : (v.set d q).set e r = v.set d r := by
  subst h
  exact Vector.set_set _ _

/-- A domain's record after another, or its own, has been lowered differs in the backlog alone. -/
theorem lowered_dom (s : State) (d e : Fin 4) :
    ∃ b, (s.domains.set d { s.dom d with backlog := (s.dom d).backlog - 1 })[e] = { s.dom e with backlog := b } := by
  rw [getElem_set_domain]
  by_cases h : d = e
  · subst h
    exact ⟨_, if_pos rfl⟩
  · exact ⟨_, if_neg h⟩

theorem retireDone_eq {s : State} {i : Nat} {rest : List Nat} (hq : s.retireQueue = i :: rest) :
    retireDone i s = decideBacklogAgain (decideSlotAgain (s.freed i rest)) := by
  unfold retireDone
  dsimp only
  rw [retireLeaves_eq hq]
  rfl

theorem retireFault_eq {s : State} {i : Nat} {rest : List Nat} (hq : s.retireQueue = i :: rest) :
    retireFault i s = decideBacklogAgain (decideSlotAgain { s.retired i rest .badEntry with
      events := (record (.mediaFault .retire (some i) (s.slotAddr i 0)) s).events }) := by
  unfold retireFault
  rw [retireLeaves_eq hq, record_eq]
  simp only [record_events]
  rfl

theorem retireTakes_eq {s : State} {i : Nat} {rest : List Nat} (hq : s.retireQueue = i :: rest) (data : Word) :
    retireTakes data s =
      if s.retireBack then if data = 0 then retireDone i s else retireFault i s
      else if s.layout.verify then { s with retireBack := true }
      else retireDone i s := by
  unfold retireTakes
  split
  next h => rw [hq] at h; cases h
  next h =>
    obtain ⟨rfl, -⟩ := List.cons.inj (hq.symm.trans h)
    rfl

/-- Settles O54: the read-back, the freed and the BAD slot, and what waited for them. -/
theorem retireFreesTheSlot : Obligations.RetireFreesTheSlot := by
  intro s f a i rest hin hns hnf hw hq
  dsimp only
  have hl : ∀ {u : State}, u.mode = s.mode → u.loadReady = false := fun h => loadReady_of_mode _ (h ▸ hns)
  have htakes := fun data => retireTakes_eq (s := s.completed f a) hq data
  have hfreed : s.WordDone s.layout.verify s.retireBack f a 0 → exec (.retireComplete f) s =
      .next (settleStep true (decideBacklogAgain (decideSlotAgain ((s.completed f a).freed i rest)))) := by
    intro hdone
    have htaken : retireTakes (accessData f s.memory a) (s.completed f a) = retireDone i (s.completed f a) := by
      rw [htakes, show (s.completed f a).retireBack = s.retireBack from rfl,
        show (s.completed f a).layout.verify = s.layout.verify from rfl]
      obtain ⟨hv, hb⟩ | ⟨hv, hb, hd⟩ := wordDone_data hdone
      · rw [hb, hv]; rfl
      · rw [hb, if_pos rfl, if_pos hd]
    rw [exec_retireComplete hin hnf (.inl hdone), htaken, retireDone_eq (s := s.completed f a) hq]
  refine ⟨fun hv hb haw => ?_, fun hdone hnone => ?_, fun hfails hnone => ?_, fun h hdone hst hd hc hg hf => ?_,
    fun h j hdone hst hd hc hg hdom hb hj => ⟨fun haccepts => ?_, fun hrefuses hk hfollows hne hcopy => ?_⟩⟩
  · have hexec := exec_memoryAccess_inProgress hin Claimant.noConfusion hnf f
    rw [deliver, htakes, show (s.completed f a).retireBack = s.retireBack from rfl,
      show (s.completed f a).layout.verify = s.layout.verify from rfl, hb, hv] at hexec
    obtain ⟨t, ht, -, hg⟩ := exec_granted hexec (hl rfl) hw
    exact ⟨t, ht, hg⟩
  · obtain ⟨hslot, hbacklog⟩ := hnone
    have hexec := hfreed hdone
    rw [decideSlotAgain_idle (by exact hslot), decideBacklogAgain_idle (by exact hbacklog)] at hexec
    obtain ⟨t, ht, -, hg⟩ := exec_granted hexec (hl rfl) hw
    exact ⟨t, ht, hg⟩
  · obtain ⟨hslot, hbacklog⟩ := hnone
    have hexec := exec_retireComplete hin hnf (.inr hfails)
    obtain ⟨hv, hback, hd⟩ := wordFails_data hfails
    rw [htakes, show (s.completed f a).retireBack = s.retireBack from rfl, hback, if_pos rfl, if_neg hd, retireFault_eq (s := s.completed f a) hq, decideSlotAgain_idle (by exact hslot),
      decideBacklogAgain_idle (by exact hbacklog)] at hexec
    obtain ⟨t, ht, -, hg⟩ := exec_granted hexec (hl rfl) hw
    refine ⟨t, ht, ?_⟩
    simp only [record_events] at hg ⊢
    exact hg
  · have hexec := hfreed hdone
    rw [decideSlotAgain_takes (s := (s.completed f a).freed i rest) (h := h) (i := i) (rest := []) hg (journalHit_eq hst hd hc)
      (congrArg (· ++ [i]) hf), takeSlot_eq, decideBacklogAgain_idle (by exact WriteStage.noConfusion)] at hexec
    obtain ⟨b, hlow⟩ := lowered_dom s (s.slot i).domain h.domain
    rw [joined_reused (v := (s.completed f a).freed i rest) (r := s.dom h.domain) (b := b) (p := s.pool) (e := .freeEntry) rfl
      hlow] at hexec
    obtain ⟨t, ht, -, hg⟩ := exec_granted hexec (hl rfl) (fun hv => PortState.noConfusion (hst.symm.trans hv))
    exact ⟨t, ht, hg⟩
  all_goals
    have hexec := hfreed hdone
    have hlow : ((s.completed f a).freed i rest).dom h.domain = { s.dom (s.slot i).domain with backlog := 0 } := by
      refine (getElem_set_domain.trans (if_pos hdom.symm)).trans ?_
      exact congrArg (fun n => ({ s.dom (s.slot i).domain with backlog := n - 1 } : Runtime)) hb
    have hold : ((s.completed f a).freed i rest).oldCommitValue h =
      Memory.word (s.completed f a).memory (BitVec.ofNat 19 (s.slotOffset j (4 + h.offset))) := State.oldCommitValue_eq hj
    have haccept : ((s.completed f a).freed i rest).GuardAccepts h ↔
        (s.cfg (s.slot i).domain).guardMode.Accepts
          (Memory.word (s.completed f a).memory (BitVec.ofNat 19 (s.slotOffset j (4 + h.offset))))
          (s.port.cycle.merged (Memory.word (s.completed f a).memory (BitVec.ofNat 19 (s.slotOffset j (4 + h.offset))))) := by
      unfold State.GuardAccepts
      rw [hold, hdom]
      exact Iff.rfl
    have hset : ∀ r, ((s.completed f a).freed i rest).domains.set h.domain r = s.domains.set (s.slot i).domain r := fun r =>
      domains_set_set hdom.symm
    rw [decideSlotAgain_idle (s := (s.completed f a).freed i rest)
      (by rw [show ((s.completed f a).freed i rest).port.stage = s.port.stage from rfl, hg]; exact WriteStage.noConfusion),
      decideBacklogAgain_evaluates (s := (s.completed f a).freed i rest) hg (journalHit_eq hst hd hc) (by rw [hlow])] at hexec
  · rw [evaluateGuard_passes (by rw [haccept]; exact haccepts), hlow, hset] at hexec
    obtain ⟨t, ht, -, hg⟩ := exec_granted hexec (hl rfl) hw
    exact ⟨t, ht, hg⟩
  · rw [evaluateGuard_fails (s := (s.completed f a).freed i rest) (by rw [haccept]; exact hrefuses) (by rw [hlow]; exact hne) (by
        intro x hx
        rw [hlow] at hx
        exact notCopying_set (s := s) SlotState.noConfusion (hcopy x hx)) hst hd hc, hlow, hset] at hexec
    obtain ⟨t, ht, -, hg⟩ := exec_granted hexec (hl rfl) (HostPort.ended_waiting _ hfollows)
    refine ⟨t, ht, ?_⟩
    have hevent : blockedEvent .dropped s.port.cycle s.port.cls =
      .writeBlocked .dropped s.port.cycle.addr (some h.region) (some (s.slot i).domain) 1 := by
      rw [hc, blockedEvent_hit hk, hdom]
    rw [← hevent]
    simp only [record_events] at hg ⊢
    exact hg

end Sys2Proof.Machine
end

section
/-! The end of a copy: the held write stored, dropped or blocked, the slot settled, the rollback taken on (R25, R26, R28, R30,
R34, R35, R90, R96). -/

namespace Sys2Proof.Machine

/-! ### How a rollback goes on (R86, R88, R89) -/

/-- A domain's record when its restore stream, with no slot in progress, takes the next slot or ends the rollback. -/
def Runtime.goesOn (r : Runtime) (fence : Bool) (st : RestoreStream) : Runtime :=
  match r.restoreList with
  | [] => { r with state := if fence then .fenced else .idle, restoreList := [], stream := none }
  | i :: rest => { r with
      restoreList := rest
      stream := some { st with slot := some i, pos := .read 0, back := false } }

/-- The events when a rollback goes on: ABORTED at its end (R89). -/
def State.closing (s : State) (d : Fin 4) (st : RestoreStream) : List EventRec :=
  if (s.dom d).restoreList = [] then (record (.aborted d st.epoch st.cause st.restored) s).events else s.events

/-- A rollback with no slot in progress and none of its list COPYING takes the next slot, or ends. -/
theorem beginRestore_goesOn {s : State} {d : Fin 4} {st : RestoreStream} (hst : (s.dom d).stream = some st) (hslot : st.slot = none)
    (hcopy : ∀ i ∈ (s.dom d).restoreList, (s.slot i).state ≠ .copying) :
    beginRestore d s = { s with
      domains := s.domains.set d ((s.dom d).goesOn (s.cfg d).fence st)
      events := s.closing d st } := by
  unfold beginRestore State.closing Runtime.goesOn
  dsimp only
  rw [hst]
  dsimp only
  rw [hslot, if_neg (by decide)]
  cases hl : (s.dom d).restoreList with
  | nil =>
    dsimp only
    unfold endRollback
    dsimp only
    rw [hst]
    dsimp only
    rw [record_eq, if_pos rfl, ← hl]
    simp only [record_events]
    rfl
  | cons i rest =>
    rw [hl] at hcopy
    have hany : ((i :: rest).any fun j => decide ((s.slot j).state = .copying)) = false := by
      rw [List.any_eq_false]
      exact fun j hj hc => hcopy j hj (of_decide_eq_true hc)
    dsimp only
    rw [hany, if_neg (by decide), if_neg (by exact List.cons_ne_nil i rest)]
    rfl

theorem dropHeld_drops {s : State} {d : Fin 4} (hh : s.holdsWriteOf d = true) (hg : s.port.stage = .none) :
    dropHeld d s = dropWrite .dropped s := by
  unfold dropHeld
  rw [if_pos hh, hg]

/-- A rollback that drops the write it holds goes on after it (R34, R86). -/
theorem beginRestore_drops {s : State} {d : Fin 4} {st : RestoreStream} (hh : s.holdsWriteOf d = true)
    (hst : (s.dom d).stream = some st) (hslot : st.slot = none)
    (hcopy : ∀ i ∈ (s.dom d).restoreList, (s.slot i).state ≠ .copying) :
    beginRestore d (dropHeld d (setStage .none s)) = { s with
      port := s.port.ended (.drop .dropped)
      memPort := { s.memPort with boost := false }
      domains := s.domains.set d ((s.dom d).goesOn (s.cfg d).fence st)
      events :=
        if (s.dom d).restoreList = [] then
          (record (.aborted d st.epoch st.cause st.restored)
            (record (blockedEvent .dropped s.port.cycle s.port.cls) s)).events
        else (record (blockedEvent .dropped s.port.cycle s.port.cls) s).events } := by
  rw [dropHeld_drops (s := setStage .none s) hh rfl, dropWrite_eq, beginRestore_goesOn (by exact hst) hslot (by exact hcopy),
    State.closing]
  simp only [record_events, record_mask]
  rfl

/-- The rollback takes the next slot of its list. -/
theorem beginRestore_drops_next {s : State} {d : Fin 4} {st : RestoreStream} {i : Nat} {rest : List Nat}
    (hh : s.holdsWriteOf d = true) (hst : (s.dom d).stream = some st) (hslot : st.slot = none)
    (hcopy : ∀ i ∈ (s.dom d).restoreList, (s.slot i).state ≠ .copying) (hl : (s.dom d).restoreList = i :: rest) :
    beginRestore d (dropHeld d (setStage .none s)) = { s with
      port := s.port.ended (.drop .dropped)
      memPort := { s.memPort with boost := false }
      domains := s.domains.set d { s.dom d with
        restoreList := rest
        stream := some { st with slot := some i, pos := .read 0, back := false } }
      events := (record (blockedEvent .dropped s.port.cycle s.port.cls) s).events } := by
  rw [beginRestore_drops hh hst hslot hcopy, Runtime.goesOn, hl, if_neg (List.cons_ne_nil i rest)]

/-- The rollback, nothing left of its list, ends. -/
theorem beginRestore_drops_last {s : State} {d : Fin 4} {st : RestoreStream} (hh : s.holdsWriteOf d = true)
    (hst : (s.dom d).stream = some st) (hslot : st.slot = none) (hl : (s.dom d).restoreList = []) :
    beginRestore d (dropHeld d (setStage .none s)) = { s with
      port := s.port.ended (.drop .dropped)
      memPort := { s.memPort with boost := false }
      domains := s.domains.set d { s.dom d with
        state := if (s.cfg d).fence then .fenced else .idle, restoreList := [], stream := none }
      events := (record (.aborted d st.epoch st.cause st.restored)
        (record (blockedEvent .dropped s.port.cycle s.port.cls) s)).events } := by
  rw [beginRestore_drops hh hst hslot (by rw [hl]; exact fun _ h => absurd h List.not_mem_nil), Runtime.goesOn, hl, if_pos rfl]

/-! ### The end of a copy -/

/-- The copy's stream has ended and its slot stands in a state (R25, R90). -/
def State.copied (s : State) (i : Nat) (st : SlotState) : State :=
  { s with copy := none, pool := s.pool.set i { s.slot i with state := st } }

/-- The copy's stream has ended and its slot has left the Slot Index with an entry (R26, R96). -/
def State.uncopied (s : State) (i : Nat) (e : PoolEntry) (d : Fin 4) (r : Runtime) (free : List Nat) (events : List EventRec) :
    State :=
  { s with
    copy := none
    freeQueue := free
    events := events
    slotIndex := s.slotIndex.filter fun x => decide (x.slot ≠ i)
    pool := s.pool.set i e
    domains := s.domains.set d r }

theorem copyDone_stores {s : State} {c : CopyStream} {h : Hit} (hdom : (s.slot c.slot).domain = h.domain)
    (hs : (s.dom h.domain).state = .opened) (hh : s.journalHit = some h)
    (hw : ¬ ((s.cfg h.domain).enabled = true ∧ (s.cfg h.domain).commitAddr = s.port.cycle.addr)) :
    copyDone c s = setStage .store (s.copied c.slot .active) := by
  unfold copyDone
  rw [hdom]
  dsimp only
  rw [hs]
  dsimp only
  rw [show (({ s with copy := none } : State).setSlotState c.slot .active).journalHit = s.journalHit from rfl, hh]
  exact if_neg fun hc => hw (isCommitWord_iff.mp hc)

theorem copyDone_commits {s : State} {c : CopyStream} {h : Hit} (hdom : (s.slot c.slot).domain = h.domain)
    (hs : (s.dom h.domain).state = .opened) (hh : s.journalHit = some h)
    (hw : (s.cfg h.domain).enabled = true ∧ (s.cfg h.domain).commitAddr = s.port.cycle.addr) :
    copyDone c s = commitAttempt h (s.copied c.slot .active) := by
  unfold copyDone
  rw [hdom]
  dsimp only
  rw [hs]
  dsimp only
  rw [show (({ s with copy := none } : State).setSlotState c.slot .active).journalHit = s.journalHit from rfl, hh]
  exact if_pos (isCommitWord_iff.mpr hw)

theorem copyDone_rolls {s : State} {c : CopyStream} {d : Fin 4} (hdom : (s.slot c.slot).domain = d)
    (hs : (s.dom d).state = .rolling) :
    copyDone c s = beginRestore d (dropHeld d (setStage .none (s.copied c.slot .restoring))) := by
  unfold copyDone
  rw [hdom]
  dsimp only
  rw [hs]
  rfl

theorem copyNotBlank_opened {s : State} {c : CopyStream} {d : Fin 4} (hdom : (s.slot c.slot).domain = d)
    (hs : (s.dom d).state = .opened) :
    copyNotBlank c s = blockWrite .onceUsed true (s.uncopied c.slot .freeEntry d { s.dom d with
        members := (s.dom d).members.erase c.slot
        state := if (s.dom d).members.erase c.slot = [] then .idle else .opened
        timer := if (s.dom d).members.erase c.slot = [] then 0 else (s.dom d).timer }
      (c.slot :: s.freeQueue) s.events) := by
  unfold copyNotBlank
  rw [hdom]
  dsimp only
  rw [hs]
  rfl

theorem copyNotBlank_rolls {s : State} {c : CopyStream} {d : Fin 4} (hdom : (s.slot c.slot).domain = d)
    (hs : (s.dom d).state = .rolling) :
    copyNotBlank c s = beginRestore d (dropHeld d (setStage .none (s.uncopied c.slot .freeEntry d
        { s.dom d with restoreList := (s.dom d).restoreList.erase c.slot } (c.slot :: s.freeQueue) s.events))) := by
  unfold copyNotBlank
  rw [hdom]
  dsimp only
  rw [hs]
  rfl

theorem copyFault_opened {s : State} {c : CopyStream} {d : Fin 4} {a : Addr} (hdom : (s.slot c.slot).domain = d)
    (hs : (s.dom d).state = .opened) :
    copyFault c a s = abortUpdate d .media (setStage .none (s.uncopied c.slot .badEntry d
        { s.dom d with members := (s.dom d).members.erase c.slot } s.freeQueue
        (record (.mediaFault .copy (some c.slot) a) s).events)) := by
  unfold copyFault
  rw [hdom]
  dsimp only
  rw [hs]
  dsimp only
  rw [record_eq]
  simp only [record_events]
  rfl

theorem copyFault_rolls {s : State} {c : CopyStream} {d : Fin 4} {a : Addr} (hdom : (s.slot c.slot).domain = d)
    (hs : (s.dom d).state = .rolling) :
    copyFault c a s = beginRestore d (dropHeld d (setStage .none (s.uncopied c.slot .badEntry d
        { s.dom d with restoreList := (s.dom d).restoreList.erase c.slot } s.freeQueue
        (record (.mediaFault .copy (some c.slot) a) s).events))) := by
  unfold copyFault
  rw [hdom]
  dsimp only
  rw [hs]
  dsimp only
  rw [record_eq]
  simp only [record_events]
  rfl

/-! ### COPY_COMPLETE (log 6) -/

theorem copyTakes_eq {s : State} {c : CopyStream} (hc : s.copy = some c) (data : Word) :
    copyTakes data s = match copyNext s c data with
      | .more c' => { s with copy := some c' }
      | .done => copyDone c s
      | .notBlank => copyNotBlank c s
      | .fault a => copyFault c a s := by
  unfold copyTakes
  split
  next h => rw [hc] at h; cases h
  next h =>
    obtain rfl := Option.some.inj (hc.symm.trans h)
    rfl

theorem exec_copyComplete {s : State} {f : Option Word} {a : Access} {c : CopyStream} (h : s.InProgress .copy a)
    (hm : s.mode ≠ .frozen) (hc : s.copy = some c) (hends : ∀ c', copyNext s c (accessData f s.memory a) ≠ .more c') :
    exec (.copyComplete f) s = .next (settleStep true (copyTakes (accessData f s.memory a) (s.completed f a))) := by
  have he : exec (.copyComplete f) s =
    answer (completeWhen (fun a => a.liveFor .copy && copyEnds s (accessData f s.memory a)) f) s := rfl
  have hcopy : copyEnds s (accessData f s.memory a) = true := by
    unfold copyEnds
    rw [hc]
    dsimp only
    split
    next c' hn => exact absurd hn (hends c')
    all_goals rfl
  rw [he, answer_powered h.1, completeWhen_some h.2.1 (by rw [State.InProgress.liveFor h, hcopy]; rfl),
    completeAccess_inProgress h hm]
  rfl

theorem exec_copyDone {s : State} {f : Option Word} {a : Access} {c : CopyStream} (h : s.InProgress .copy a)
    (hm : s.mode ≠ .frozen) (hc : s.copy = some c) (hn : copyNext s c (accessData f s.memory a) = .done) :
    exec (.copyComplete f) s = .next (settleStep true (copyDone c (s.completed f a))) := by
  have hnext : copyNext (s.completed f a) c (accessData f s.memory a) = .done := hn
  rw [exec_copyComplete h hm hc (by rw [hn]; exact fun _ h => by cases h), copyTakes_eq (s := s.completed f a) hc, hnext]

theorem exec_copyNotBlank {s : State} {f : Option Word} {a : Access} {c : CopyStream} (h : s.InProgress .copy a)
    (hm : s.mode ≠ .frozen) (hc : s.copy = some c) (hn : copyNext s c (accessData f s.memory a) = .notBlank) :
    exec (.copyComplete f) s = .next (settleStep true (copyNotBlank c (s.completed f a))) := by
  have hnext : copyNext (s.completed f a) c (accessData f s.memory a) = .notBlank := hn
  rw [exec_copyComplete h hm hc (by rw [hn]; exact fun _ h => by cases h), copyTakes_eq (s := s.completed f a) hc, hnext]

theorem exec_copyFault {s : State} {f : Option Word} {a : Access} {c : CopyStream} {at' : Addr} (h : s.InProgress .copy a)
    (hm : s.mode ≠ .frozen) (hc : s.copy = some c) (hn : copyNext s c (accessData f s.memory a) = .fault at') :
    exec (.copyComplete f) s = .next (settleStep true (copyFault c at' (s.completed f a))) := by
  have hnext : copyNext (s.completed f a) c (accessData f s.memory a) = .fault at' := hn
  rw [exec_copyComplete h hm hc (by rw [hn]; exact fun _ h => by cases h), copyTakes_eq (s := s.completed f a) hc, hnext]

end Sys2Proof.Machine
end

section
/-! The outcomes of a copy's end, settled one by one (R25, R26, R90, R96). -/

namespace Sys2Proof.Machine

/-! ### The word that ends a copy -/

theorem copyNext_tagged {s : State} {c : CopyStream} {f : Option Word} {a : Access} {d : Fin 4} (hp : c.pos = .tag)
    (hdom : (s.slot c.slot).domain = d) (h : s.WordDone s.layout.verify c.back f a (0xA600 + BitVec.ofNat 16 d.val)) :
    copyNext s c (accessData f s.memory a) = .done := by
  obtain ⟨i, pos, back, sum⟩ := c
  obtain rfl : pos = .tag := hp
  have hvalue : copyValue s { slot := i, pos := .tag, back := back, sum := sum } = 0xA600 + BitVec.ofNat 16 d.val := by
    rw [← hdom]
    rfl
  refine (copyNext_done (fun _ h => by cases h) ?_).trans rfl
  rw [hvalue]
  exact wordDone_data h

theorem copyNext_notBlank {s : State} {c : CopyStream} {f : Option Word} {a : Access} {k : Nat} (hp : c.pos = .read k)
    (hr : a.write = false) (ho : (s.slotRegion c.slot).kind = .once) (hw : s.wordRead f a ≠ 0xFFFF) :
    copyNext s c (accessData f s.memory a) = .notBlank := by
  rw [accessData_of_read hr]
  unfold copyNext
  rw [hp]
  exact if_pos ⟨ho, hw⟩

/-- A word of the copy that is read back wrong, with its number in the slot (R94, R96). -/
def State.CopyFaultAt (s : State) (c : CopyStream) (f : Option Word) (a : Access) (k : Nat) : Prop :=
  let e : PoolEntry := s.slot c.slot
  let locator : Word := BitVec.ofNat 16 (e.region.val * 4096 + e.record % 4096)
  let fails (w : Word) : Prop := s.WordFails s.layout.verify c.back f a w
  (∃ i w, c.pos = .image i w ∧ fails w ∧ k = 4 + i)
    ∨ (c.pos = .epoch ∧ fails e.epoch ∧ k = 1) ∨ (c.pos = .locator ∧ fails locator ∧ k = 2)
    ∨ (c.pos = .check ∧ fails (~~~ (e.epoch + locator + c.sum)) ∧ k = 3)
    ∨ (c.pos = .tag ∧ fails (0xA600 + BitVec.ofNat 16 e.domain.val) ∧ k = 0)

theorem copyNext_fault {s : State} {c : CopyStream} {f : Option Word} {a : Access} {k : Nat} (h : s.CopyFaultAt c f a k) :
    copyNext s c (accessData f s.memory a) = .fault (BitVec.ofNat 19 (s.slotOffset c.slot k)) := by
  obtain ⟨i, pos, back, sum⟩ := c
  obtain ⟨j, w, hp, hf, rfl⟩ | ⟨hp, hf, rfl⟩ | ⟨hp, hf, rfl⟩ | ⟨hp, hf, rfl⟩ | ⟨hp, hf, rfl⟩ := h
  all_goals
    cases hp
    obtain ⟨-, hb, hne⟩ := wordFails_data hf
    exact copyNext_fails (fun _ h => by cases h) hb hne

/-! ### The slot's own record -/

theorem uncopied_dom (s : State) (i : Nat) (e : PoolEntry) (d : Fin 4) (r : Runtime) (l : List Nat) (es : List EventRec) :
    (s.uncopied i e d r l es).dom d = r := getElem_set_domain.trans (if_pos rfl)

theorem uncopied_set (s : State) (i : Nat) (e : PoolEntry) (d : Fin 4) (r : Runtime) (l : List Nat) (es : List EventRec)
    (q : Runtime) : (s.uncopied i e d r l es).domains.set d q = s.domains.set d q := domains_set_set rfl

section Uncopied

variable {s : State} {i : Nat} {e : PoolEntry} {d : Fin 4} {r q : Runtime} {l : List Nat} {es : List EventRec}

/-- A write of the domain dropped after its copy's end (R34). -/
def State.droppedAfter (s : State) (es : List EventRec) : List EventRec :=
  (record (blockedEvent .dropped s.port.cycle s.port.cls) { s with events := es }).events

/-- What a dropped write leaves of the Port and the boost (R34, R110). -/
def State.portDropped (s : State) (u : State) : State := { u with
  port := s.port.ended (.drop .dropped)
  memPort := { s.memPort with boost := false } }

theorem abort_uncopied_empty {cause : Cause} (hr : r.members = []) (hh : s.holdsWriteOf d = true) :
    abortUpdate d cause (setStage .none (s.uncopied i e d r l es)) =
      s.portDropped (s.uncopied i e d { r with
          state := if (s.cfg d).fence then .fenced else .idle, timer := 0, members := [], restoreList := [], stream := none } l
        (record (.aborted d (r.committed + 1) cause 0) { s with events := s.droppedAfter es }).events) := by
  have hdom : (setStage .none (s.uncopied i e d r l es)).dom d = r := uncopied_dom s i e d r l es
  have hset : ∀ q, (setStage .none (s.uncopied i e d r l es)).domains.set d q = s.domains.set d q :=
    uncopied_set s i e d r l es
  rw [abort_empty (s := setStage .none (s.uncopied i e d r l es)) (by rw [hdom]; exact hr) hh (.inl rfl), hdom, hset,
    State.droppedAfter, ← hr]
  simp only [record_events, record_mask]
  rfl

theorem abort_uncopied {cause : Cause} (he : e.state ≠ .copying) (hr : r.members ≠ [])
    (hcopy : ∀ j ∈ r.members, j ≠ i → (s.slot j).state ≠ .copying) (hh : s.holdsWriteOf d = true) :
    abortUpdate d cause (setStage .none (s.uncopied i e d r l es)) =
      s.portDropped { s.uncopied i e d (r.rolledBack cause) l (s.droppedAfter es) with
        pool := movedPool .active .restoring r.members (s.pool.set i e) } := by
  have hdom : (setStage .none (s.uncopied i e d r l es)).dom d = r := uncopied_dom s i e d r l es
  have hset : ∀ q, (setStage .none (s.uncopied i e d r l es)).domains.set d q = s.domains.set d q :=
    uncopied_set s i e d r l es
  rw [abort_waitingWrite (s := setStage .none (s.uncopied i e d r l es)) (by rw [hdom]; exact hr) (by
    rw [hdom]
    exact fun j hj => notCopying_set (s := s) he (hcopy j hj)) hh (.inl rfl), hdom, hset, State.droppedAfter]
  simp only [record_events]
  rfl

theorem rollback_uncopied_next {st : RestoreStream} {j : Nat} {rest : List Nat} (he : e.state ≠ .copying)
    (hst : r.stream = some st) (hslot : st.slot = none)
    (hcopy : ∀ j ∈ r.restoreList, j ≠ i → (s.slot j).state ≠ .copying) (hh : s.holdsWriteOf d = true)
    (hr : r.restoreList = j :: rest) :
    beginRestore d (dropHeld d (setStage .none (s.uncopied i e d r l es))) =
      s.portDropped (s.uncopied i e d { r with
        restoreList := rest
        stream := some { st with slot := some j, pos := .read 0, back := false } } l (s.droppedAfter es)) := by
  have hdom : (s.uncopied i e d r l es).dom d = r := uncopied_dom s i e d r l es
  rw [beginRestore_drops_next (s := s.uncopied i e d r l es) hh (by rw [hdom]; exact hst) hslot (by
    rw [hdom]
    exact fun j hj => notCopying_set (s := s) he (hcopy j hj)) (by rw [hdom]; exact hr), hdom, uncopied_set, State.droppedAfter]
  simp only [record_events]
  rfl

theorem rollback_uncopied_last {st : RestoreStream} (hst : r.stream = some st) (hslot : st.slot = none)
    (hh : s.holdsWriteOf d = true) (hr : r.restoreList = []) :
    beginRestore d (dropHeld d (setStage .none (s.uncopied i e d r l es))) =
      s.portDropped (s.uncopied i e d { r with
          state := if (s.cfg d).fence then .fenced else .idle, restoreList := [], stream := none } l
        (record (.aborted d st.epoch st.cause st.restored) { s with events := s.droppedAfter es }).events) := by
  have hdom : (s.uncopied i e d r l es).dom d = r := uncopied_dom s i e d r l es
  rw [beginRestore_drops_last (s := s.uncopied i e d r l es) hh (by rw [hdom]; exact hst) hslot (by rw [hdom]; exact hr), hdom,
    uncopied_set, State.droppedAfter]
  simp only [record_events, record_mask]
  rfl

/-- Who STRAY strikes, and which slots it moves, from the domains as they stand (R36). -/
theorem strayed_of_dom {s : State} {kept : Fin 4 → Runtime} (h : ∀ d, s.dom d = kept d) :
    s.strayed = (fun d => if ((s.cfg d).strict && decide ((kept d).state = .opened)) = true then (kept d).rolledBack .stray
      else kept d)
    ∧ s.strayedSlots = fun d => if ((s.cfg d).strict && decide ((kept d).state = .opened)) = true then (kept d).members else [] := by
  obtain rfl : s.dom = kept := funext h
  exact ⟨rfl, rfl⟩

/-- A write blocked at its copy's end, STRAY striking every strict domain still OPEN (R36, R82). -/
theorem blockWrite_uncopied {r : Reason} (he : e.state ≠ .copying)
    (hfit : ∀ x, ((s.cfg x).strict && decide ((if x = d then q else s.dom x).state = .opened)) = true →
      (if x = d then q else s.dom x).members ≠ []
        ∧ ∀ j ∈ (if x = d then q else s.dom x).members, j ≠ i → (s.slot j).state ≠ .copying) :
    blockWrite r true (s.uncopied i e d q l es) = { s.uncopied i e d q l es with
      port := s.port.ended (.block r)
      events := (record (blockedEvent r s.port.cycle s.port.cls) { s with events := es }).events
      domains := Vector.ofFn fun x => if ((s.cfg x).strict && decide ((if x = d then q else s.dom x).state = .opened)) = true
        then (if x = d then q else s.dom x).rolledBack .stray else (if x = d then q else s.dom x)
      pool := movedPool .active .restoring
        (domainIndices.flatMap fun x => if ((s.cfg x).strict && decide ((if x = d then q else s.dom x).state = .opened)) = true
          then (if x = d then q else s.dom x).members else []) (s.pool.set i e) } := by
  have hkept : ∀ x, (s.uncopied i e d q l es).dom x = if x = d then q else s.dom x := fun x =>
    getElem_set_domain.trans (if_congr eq_comm rfl rfl)
  obtain ⟨hstrayed, hslots⟩ := strayed_of_dom hkept
  rw [blockWrite_strays r (fun x hx => by
    have hx' : ((s.cfg x).strict && decide ((if x = d then q else s.dom x).state = .opened)) = true := by
      rw [← hkept x]
      exact hx
    rw [hkept x]
    exact ⟨(hfit x hx').1, fun j hj => notCopying_set (s := s) he ((hfit x hx').2 j hj)⟩), hstrayed, hslots]
  simp only [record_events]
  rfl

end Uncopied

/-- The host goes first (R107). -/
theorem bestClaim_host {s : State} (h : s.Ready .host) : bestClaim s = some .host := by
  have horder : grantOrder s.memPort.boost s.memPort.pointer = .host ::
    (([.recovery, .copy, .commit] ++ if s.memPort.boost then [.retire] else [])
      ++ (roundRobin s.memPort.pointer).map positionClaimant ++ [.retire]) := rfl
  rw [bestClaim_eq, horder, List.find?_cons_of_pos ((claims_iff_ready s .host).mpr h)]

/-- Settles O52: each outcome's next state, from the word that ends the copy and the domain's state. -/
theorem copyEndsSettleTheHeldWrite : Obligations.CopyEndsSettleTheHeldWrite := by
  intro s f a c h hin hns hnf hc hst hd hcls hk hdom hfollows
  dsimp only
  have hl : ∀ {u : State}, u.mode = s.mode → u.loadReady = false := fun h => loadReady_of_mode _ (h ▸ hns)
  have hheld : ∀ {p : Prop}, s.port.state = .vacant → p := fun hv => PortState.noConfusion (hst.symm.trans hv)
  have hhit : (s.completed f a).journalHit = some h := journalHit_eq hst hd hcls
  have hevent : ∀ r, blockedEvent r s.port.cycle s.port.cls =
      .writeBlocked r s.port.cycle.addr (some h.region) (some h.domain) 1 := fun r => by rw [hcls, blockedEvent_hit hk]
  have hdone := fun hpos hword => exec_copyDone (f := f) hin hnf hc (copyNext_tagged hpos hdom hword)
  have haccept : s.indexed h.region h.record = some c.slot →
      (((s.completed f a).copied c.slot .active).GuardAccepts h ↔ (s.cfg h.domain).guardMode.Accepts
        (Memory.word (s.completed f a).memory (BitVec.ofNat 19 (s.slotOffset c.slot (4 + h.offset))))
        (s.port.cycle.merged
          (Memory.word (s.completed f a).memory (BitVec.ofNat 19 (s.slotOffset c.slot (4 + h.offset)))))) := by
    intro hi
    unfold State.GuardAccepts
    rw [State.oldCommitValue_eq (s := (s.completed f a).copied c.slot .active) hi]
    exact Iff.rfl
  refine ⟨fun ⟨hpos, hword⟩ hs hw => ?_, fun ⟨hpos, hword⟩ hs hw hb => ?_, fun ⟨hpos, hword⟩ hs hw hb hi => ⟨fun hg => ?_,
    fun hg hne hcopy => ?_⟩, fun st i rest ⟨hpos, hword⟩ hs hstream hslot hlist hcopy => ?_, ?_, ?_, ?_⟩
  · have hexec := hdone hpos hword
    rw [copyDone_stores (s := s.completed f a) hdom hs hhit hw] at hexec
    refine ⟨⟨_, hexec, settleStep_granted true _ (hl rfl) hheld⟩, fun hstop => ⟨_, hexec, ?_⟩⟩
    refine settleStep_grants (hl rfl) hheld rfl hstop (bestClaim_host (.inr ⟨hst, .inl rfl⟩)) ?_
    rw [accessOf, hostAccess, show (setStage .store ((s.completed f a).copied c.slot .active)).port.state = .deciding from hst]
    rfl
  · have hexec := hdone hpos hword
    rw [copyDone_commits (s := s.completed f a) hdom hs hhit hw,
      commitAttempt_waits (s := (s.completed f a).copied c.slot .active) hb] at hexec
    exact ⟨_, hexec, settleStep_granted true _ (hl rfl) hheld⟩
  · have hexec := hdone hpos hword
    rw [copyDone_commits (s := s.completed f a) hdom hs hhit hw,
      commitAttempt_evaluates (s := (s.completed f a).copied c.slot .active) hb,
      evaluateGuard_passes (s := (s.completed f a).copied c.slot .active) ((haccept hi).mpr hg)] at hexec
    exact ⟨_, hexec, settleStep_granted true _ (hl rfl) hheld⟩
  · have hexec := hdone hpos hword
    rw [copyDone_commits (s := s.completed f a) hdom hs hhit hw,
      commitAttempt_evaluates (s := (s.completed f a).copied c.slot .active) hb,
      evaluateGuard_fails (s := (s.completed f a).copied c.slot .active) (fun h => hg ((haccept hi).mp h)) hne
        (fun j hj => notCopying_set (s := s) SlotState.noConfusion (hcopy j hj)) hst hd hcls] at hexec
    obtain ⟨t, ht, -, hg⟩ := exec_granted hexec (hl rfl) (HostPort.ended_waiting _ hfollows)
    refine ⟨t, ht, ?_⟩
    rw [← hevent]
    simp only [record_events] at hg ⊢
    exact hg
  · have hexec := hdone hpos hword
    rw [copyDone_rolls (s := s.completed f a) hdom hs,
      beginRestore_drops_next (s := (s.completed f a).copied c.slot .restoring) (holdsWriteOf_hit hst hd hcls) hstream hslot
        (fun j hj => notCopying_set (s := s) SlotState.noConfusion (hcopy j hj)) hlist] at hexec
    obtain ⟨t, ht, -, hg⟩ := exec_granted hexec (hl rfl) (HostPort.ended_waiting _ hfollows)
    refine ⟨t, ht, ?_⟩
    rw [← hevent]
    simp only [record_events] at hg ⊢
    exact hg
  · intro ⟨har, honce, hword, k, hpos⟩ hs hstruck
    have hexec := exec_copyNotBlank hin hnf hc (copyNext_notBlank hpos har honce hword)
    rw [copyNotBlank_opened (s := s.completed f a) hdom hs] at hexec
    rw [blockWrite_uncopied (s := s.completed f a) SlotState.noConfusion (by exact hstruck)] at hexec
    obtain ⟨t, ht, -, hg⟩ := exec_granted hexec (hl rfl) (HostPort.ended_waiting _ hfollows)
    refine ⟨t, ht, ?_⟩
    rw [← hevent]
    simp only [record_events] at hg ⊢
    exact hg
  · intro k hfault hs
    have hexec := exec_copyFault hin hnf hc (copyNext_fault hfault)
    rw [copyFault_opened (s := s.completed f a) hdom hs] at hexec
    refine ⟨fun hempty => ?_, fun hne hcopy => ?_⟩
    · rw [abort_uncopied_empty (s := s.completed f a) hempty (holdsWriteOf_hit hst hd hcls)] at hexec
      obtain ⟨t, ht, -, hg⟩ := exec_granted hexec (hl rfl) (HostPort.ended_waiting _ hfollows)
      refine ⟨t, ht, ?_⟩
      rw [← hevent]
      simp only [State.droppedAfter, record_events, record_mask] at hg ⊢
      exact hg
    · rw [abort_uncopied (s := s.completed f a) SlotState.noConfusion hne hcopy (holdsWriteOf_hit hst hd hcls)] at hexec
      obtain ⟨t, ht, -, hg⟩ := exec_granted hexec (hl rfl) (HostPort.ended_waiting _ hfollows)
      refine ⟨t, ht, ?_⟩
      rw [← hevent]
      simp only [State.droppedAfter, record_events, record_mask] at hg ⊢
      exact hg
  · intro st hs hstream hslot hcopy
    have rolls : ∀ {e : PoolEntry} {l : List Nat} {es : List EventRec}, e.state ≠ .copying →
        exec (.copyComplete f) s = .next (settleStep true (beginRestore h.domain (dropHeld h.domain (setStage .none
          ((s.completed f a).uncopied c.slot e h.domain
            { s.dom h.domain with restoreList := (s.dom h.domain).restoreList.erase c.slot } l es))))) →
        ∃ t, exec (.copyComplete f) s = .next t ∧ Granted ((s.completed f a).portDropped ((s.completed f a).uncopied c.slot e h.domain
          (({ s.dom h.domain with restoreList := (s.dom h.domain).restoreList.erase c.slot } : Runtime).goesOn
            (s.cfg h.domain).fence st) l
          (if (s.dom h.domain).restoreList.erase c.slot = [] then
            (record (.aborted h.domain st.epoch st.cause st.restored)
              { s.completed f a with events := (s.completed f a).droppedAfter es }).events
          else (s.completed f a).droppedAfter es))) t := by
      intro e l es he hexec
      unfold Runtime.goesOn
      dsimp only
      cases hlist : (s.dom h.domain).restoreList.erase c.slot with
      | nil =>
        rw [rollback_uncopied_last (s := s.completed f a) (by exact hstream) hslot (holdsWriteOf_hit hst hd hcls) (by exact hlist)] at hexec
        obtain ⟨t, ht, -, hg⟩ := exec_granted hexec (hl rfl) (HostPort.ended_waiting _ hfollows)
        exact ⟨t, ht, hg⟩
      | cons j rest =>
        rw [rollback_uncopied_next (s := s.completed f a) he (by exact hstream) hslot hcopy (holdsWriteOf_hit hst hd hcls)
          (by exact hlist)] at hexec
        obtain ⟨t, ht, -, hg⟩ := exec_granted hexec (hl rfl) (HostPort.ended_waiting _ hfollows)
        exact ⟨t, ht, hg⟩
    refine ⟨fun ⟨har, honce, hword, k, hpos⟩ => ?_, fun k hfault => ?_⟩
    · have hexec := exec_copyNotBlank hin hnf hc (copyNext_notBlank hpos har honce hword)
      rw [copyNotBlank_rolls (s := s.completed f a) hdom hs] at hexec
      obtain ⟨t, ht, hg⟩ := rolls (e := .freeEntry) SlotState.noConfusion hexec
      refine ⟨t, ht, ?_⟩
      rw [← hevent]
      simp only [State.droppedAfter, record_events, record_mask] at hg ⊢
      unfold Runtime.goesOn at hg
      dsimp only at hg
      cases hlist : (s.dom h.domain).restoreList.erase c.slot with
      | nil => rw [hlist] at hg; exact hg
      | cons j rest => rw [hlist] at hg; exact hg
    · have hexec := exec_copyFault hin hnf hc (copyNext_fault hfault)
      rw [copyFault_rolls (s := s.completed f a) hdom hs] at hexec
      obtain ⟨t, ht, hg⟩ := rolls (e := .badEntry) SlotState.noConfusion hexec
      refine ⟨t, ht, ?_⟩
      rw [← hevent]
      simp only [State.droppedAfter, record_events, record_mask] at hg ⊢
      unfold Runtime.goesOn at hg
      dsimp only at hg
      cases hlist : (s.dom h.domain).restoreList.erase c.slot with
      | nil => rw [hlist] at hg; exact hg
      | cons j rest => rw [hlist] at hg; exact hg

end Sys2Proof.Machine
end

section
/-! Restores word by word, in rollback and in recovery (R87, R94, R124). -/

namespace Sys2Proof.Machine

/-! ### How a restore goes on -/

theorem restoreNext_back {n : Nat} {pos : RestorePos} {data : Word} (hp : ∀ k, pos ≠ .read k) :
    restoreNext n true pos false data = .more pos true := by
  cases pos with
  | read k => exact absurd rfl (hp k)
  | word k w => rfl
  | tag => rfl

theorem restoreNext_word_done {n k : Nat} {w data : Word} {verify back : Bool}
    (h : verify = false ∧ back = false ∨ verify = true ∧ back = true ∧ data = w) :
    restoreNext n verify (.word k w) back data = .more (if k + 1 < n then .read (k + 1) else .tag) false := by
  obtain ⟨rfl, rfl⟩ | ⟨rfl, rfl, rfl⟩ := h
  · rfl
  · simp [restoreNext]

theorem restoreNext_word_fails {n k : Nat} {w data : Word} (h : data ≠ w) :
    restoreNext n true (.word k w) true data = .recordFault := by
  simp [restoreNext, h]

/-! ### Who is granted next -/

/-- With no other work than this restore stream's and the retire stream's, the restore goes first (R107). -/
theorem bestClaim_restore {s : State} {d : Fin 4} (honly : s.OnlyRestores d) (hm : s.mode ≠ .starting)
    (hr : s.Ready (.restore d)) : bestClaim s = some (.restore d) := by
  obtain ⟨hst, hcopy, hcommit, hinstall, hboost, -, hothers⟩ := honly
  refine bestClaim_of_least ((mem_standing_iff_ready s _).mpr hr) fun e he => ?_
  rw [hboost]
  have hready := (mem_standing_iff_ready s e).mp he
  have hleast : ∀ (p : Fin 5) (d : Fin 4), grantRank false p (.restore d) ≤ grantRank false p .retire := by decide
  cases e with
  | host =>
    obtain hat | ⟨hd, -⟩ := hready
    · obtain h | h | h := hst <;> exact PortState.noConfusion (h.symm.trans hat)
    · obtain h | h | h := hst <;> exact PortState.noConfusion (h.symm.trans hd)
  | copy => exact absurd hcopy hready
  | commit => exact absurd hcommit hready
  | restore e =>
    by_cases hed : e = d
    · rw [hed]
    · obtain ⟨st, i, hstream, -⟩ := hready
      rw [hothers e hed] at hstream
      cases hstream
  | retire => exact hleast _ d
  | install =>
    obtain ⟨st, h, -⟩ := hready
    rw [hinstall] at h
    cases h
  | recovery => exact absurd hready (recovery_not_ready hm)

/-- In STARTING the recovery goes before every claimant but the host (R107). -/
theorem bestClaim_recovery {s : State} (hh : ¬ s.Ready .host) (hr : s.Ready .recovery) : bestClaim s = some .recovery := by
  have horder : grantOrder s.memPort.boost s.memPort.pointer = .host :: .recovery ::
    (([.copy, .commit] ++ if s.memPort.boost then [.retire] else []) ++ (roundRobin s.memPort.pointer).map positionClaimant
      ++ [.retire]) := rfl
  rw [bestClaim_eq, horder, List.find?_cons_of_neg (by rw [claims_iff_ready]; exact hh),
    List.find?_cons_of_pos ((claims_iff_ready s .recovery).mpr hr)]

/-! ### A restore stream and the recovery going on -/

/-- A recovery that has come to a word does not wait for LOAD's beginning. -/
theorem loadReady_of_pos {u : State} (h : u.recovery.pos ≠ .idle) : u.loadReady = false := by
  rw [← Bool.not_eq_true, loadReady_iff]
  exact fun hl => h hl.2.2.1

/-- A restore stream that goes on hands its word to its own record alone, in every mode. -/
theorem exec_restore_goesOn {s : State} {f : Option Word} {a : Access} {d : Fin 4} {st : RestoreStream} {i : Nat} {pos : RestorePos}
    {back : Bool} (h : s.InProgress (.restore d) a) (hst : (s.dom d).stream = some st) (hi : st.slot = some i)
    (hn : restoreNext (s.slotRegion i).size s.layout.verify st.pos st.back (accessData f s.memory a) = .more pos back) :
    exec (.memoryAccessComplete f) s = .next (settleStep true { s.completed f a with
      domains := s.domains.set d { s.dom d with stream := some { st with pos := pos, back := back } } }) := by
  obtain ⟨hp, ha, hclaim, ho⟩ := h
  have hnext : restoreNext ((s.completed f a).slotRegion i).size (s.completed f a).layout.verify st.pos st.back
      (accessData f s.memory a) = .more pos back := hn
  have hstream : ((s.completed f a).dom d).stream = some st := hst
  have htakes : restoreTakes d (accessData f s.memory a) (s.completed f a) = { s.completed f a with
      domains := s.domains.set d { s.dom d with stream := some { st with pos := pos, back := back } } } := by
    unfold restoreTakes
    rw [hstream]
    dsimp only
    rw [hi]
    dsimp only
    rw [hnext]
    rfl
  have hfrozen : deliverFrozen (.restore d) (accessData f s.memory a) (s.completed f a) = { s.completed f a with
      domains := s.domains.set d { s.dom d with stream := some { st with pos := pos, back := back } } } := by
    unfold deliverFrozen
    dsimp only
    rw [hstream]
    dsimp only
    rw [hi]
    dsimp only
    rw [hnext]
    rfl
  rw [exec_memoryAccessComplete hp ha (by rw [hclaim]; exact Claimant.noConfusion), completeAccess, handOver,
    if_neg (by rw [ho]; decide), finishAccess_eq, hclaim]
  split
  next => rw [hfrozen]
  next => rw [deliver, htakes]

theorem recoveryTakes_goesOn {s : State} {it : RecItem} {pos pos' : RestorePos} {back back' : Bool} {data : Word}
    (hp : s.recovery.pos = .restore it pos back) (hn : restoreNext it.size s.layout.verify pos back data = .more pos' back') :
    recoveryTakes data s = { s with recovery := { s.recovery with pos := .restore it pos' back' } } := by
  unfold recoveryTakes
  rw [hp]
  dsimp only
  unfold recoveryRestoreTakes
  rw [hn]
  rfl

/-- A recovery that has another word to come to goes on with it, the host alone going first (R107, R112). -/
theorem recovery_goesOn {s : State} {f : Option Word} {a : Access} {r : Recovery} {next : Access} (h : s.InProgress .recovery a)
    (hm : s.mode = .starting) (hw : s.NoCycleWaits)
    (htakes : recoveryTakes (accessData f s.memory a) (s.completed f a) = { s.completed f a with recovery := r })
    (hidle : r.pos ≠ .idle) (hepochs : r.pos ≠ .epochs [])
    (hacc : recoveryAccess { s.completed f a with recovery := r } = some next) :
    ∃ t, exec (.memoryAccessComplete f) s = .next t ∧ Granted { s.completed f a with recovery := r } t
      ∧ (s.memPort.stopped = false → ¬ s.Ready .host → t.memPort.access = some next) := by
  have hl : ({ s.completed f a with recovery := r } : State).loadReady = false := loadReady_of_pos hidle
  have hexec := exec_memoryAccess_inProgress h Claimant.noConfusion (by rw [hm]; exact Mode.noConfusion) f
  rw [deliver, htakes] at hexec
  refine ⟨_, hexec, settleStep_granted true _ hl hw, fun hstop hhost => ?_⟩
  exact settleStep_grants hl hw rfl hstop (bestClaim_recovery hhost ⟨hm, hidle, hepochs⟩)
    ((if_pos hm).trans hacc)

/-! ### The obligation -/

/-- A domain's restore stream goes on to a position, its next access following when nothing else claims (R87). -/
def State.RestoreGoesTo (s : State) (f : Option Word) (a : Access) (d : Fin 4) (st : RestoreStream) (pos : RestorePos) (back : Bool)
    (next : Access) : Prop :=
  ∃ t, exec (.memoryAccessComplete f) s = .next t
    ∧ Granted { s.completed f a with
        domains := s.domains.set d { s.dom d with stream := some { st with pos := pos, back := back } } } t
    ∧ (s.OnlyRestores d → t.memPort.access = some next)

/-- The recovery in RESTORE goes on to a position, its next access following when the host is not ready (R124). -/
def State.RecoveryGoesTo (s : State) (f : Option Word) (a : Access) (it : RecItem) (pos : RestorePos) (back : Bool)
    (next : Access) : Prop :=
  ∃ t, exec (.memoryAccessComplete f) s = .next t
    ∧ Granted { s.completed f a with recovery := { s.recovery with pos := .restore it pos back } } t
    ∧ (s.memPort.stopped = false → ¬ s.Ready .host → t.memPort.access = some next)

/-- What holds of each way a restore goes on, holds of the ways it goes on word by word (R87, R94). -/
theorem restore_works {s : State} {f : Option Word} {a : Access} {c : Claimant} {e : RegionEntry} {i rec n : Nat} {pos : RestorePos}
    {back : Bool} {goesTo : RestorePos → Bool → Access → Prop}
    (h : ∀ {pos' back' next}, restoreNext n s.layout.verify pos back (accessData f s.memory a) = .more pos' back' →
      restoreAccess c s e i rec pos' back' = next → goesTo pos' back' next) :
    (∀ k, pos = .read k → a.write = false →
      goesTo (.word k (s.wordRead f a)) false (writeOf c (e.wordAt rec k) (s.wordRead f a)))
    ∧ (∀ k w, pos = .word k w → s.layout.verify = true → back = false → a.write = true →
      goesTo (.word k w) true (readOf c (e.wordAt rec k)))
    ∧ (∀ k w, pos = .word k w → s.WordDone s.layout.verify back f a w →
      (k + 1 < n → goesTo (.read (k + 1)) false (readOf c (s.slotOffset i (4 + (k + 1)))))
      ∧ (n ≤ k + 1 → goesTo .tag false (writeOf c (s.slotOffset i 0) 0)))
    ∧ (pos = .tag → s.layout.verify = true → back = false → a.write = true → goesTo .tag true (readOf c (s.slotOffset i 0))) := by
  refine ⟨fun k hp har => ?_, fun k w hp hv hb _ => ?_, fun k w hp hdone => ?_, fun hp hv hb _ => ?_⟩
  · rw [← accessData_of_read har]
    subst hp
    exact h rfl rfl
  · subst hp hb
    exact h (by rw [hv]; exact restoreNext_back fun _ => RestorePos.noConfusion) rfl
  · subst hp
    have hnext := restoreNext_word_done (n := n) (k := k) (wordDone_data hdone)
    exact ⟨fun hk => h (hnext.trans (by rw [if_pos hk])) rfl, fun hk => h (hnext.trans (by rw [if_neg (Nat.not_lt.mpr hk)])) rfl⟩
  · subst hp hb
    exact h (by rw [hv]; exact restoreNext_back fun _ => RestorePos.noConfusion) rfl

/-- Settles O55: each position's next one, for a restore stream and for the recovery. -/
theorem restoresWorkWordByWord : Obligations.RestoresWorkWordByWord := by
  intro s f a hw
  refine ⟨fun d st i hin hm hst hi => restore_works (goesTo := s.RestoreGoesTo f a d st) fun {pos back next} hnext hacc => ?_,
    fun it pos back hin hm hpos => restore_works (goesTo := s.RecoveryGoesTo f a it) fun {pos' back' next} hnext hacc => ?_⟩
  · have hl : ({ s.completed f a with
        domains := s.domains.set d { s.dom d with stream := some { st with pos := pos, back := back } } } : State).loadReady = false :=
      loadReady_of_mode _ hm
    refine ⟨_, exec_restore_goesOn hin hst hi hnext, settleStep_granted true _ hl hw, fun honly => ?_⟩
    obtain ⟨hport, hcopy, hcommit, hinstall, hboost, hstop, hothers⟩ := honly
    have hdom : ∀ e, ({ s.completed f a with
        domains := s.domains.set d { s.dom d with stream := some { st with pos := pos, back := back } } } : State).dom e =
        if d = e then { s.dom d with stream := some { st with pos := pos, back := back } } else s.dom e := fun e =>
      getElem_set_domain
    have hstream := congrArg Runtime.stream ((hdom d).trans (if_pos rfl))
    refine settleStep_grants hl hw rfl hstop (bestClaim_restore ⟨hport, hcopy, hcommit, hinstall, hboost, hstop, fun e he => ?_⟩ hm
      ⟨_, i, hstream, hi⟩) ?_
    · rw [hdom e, if_neg (Ne.symm he)]
      exact hothers e he
    · rw [accessOf, restoreStreamAccess, hstream]
      dsimp only
      rw [hi, ← hacc]
      rfl
  · exact recovery_goesOn hin hm hw (recoveryTakes_goesOn (s := s.completed f a) hpos hnext) RecPos.noConfusion RecPos.noConfusion
      (congrArg some hacc)

end Sys2Proof.Machine
end

section
/-! The end of a slot's restore: FREE, taken or BAD, and how the rollback goes on (R24, R88, R89, R98, R99). -/

namespace Sys2Proof.Machine

/-! ### The end of a slot's restore (R88, R98, R99) -/

/-- A slot has left the Slot Index with an entry, and its restore stream has counted it (R88, R99). -/
def State.unrestored (s : State) (d : Fin 4) (st : RestoreStream) (i : Nat) (e : PoolEntry) (free : List Nat)
    (events : List EventRec) : State := { s with
  pool := s.pool.set i e
  slotIndex := s.slotIndex.filter fun x => decide (x.slot ≠ i)
  freeQueue := free
  events := events
  domains := s.domains.set d { s.dom d with stream := some { st with slot := none, restored := st.restored + 1 } } }

/-- A domain's record when the next slot of its restore list follows, or none is left (R88, R89). -/
def Runtime.onward (r : Runtime) (fence : Bool) (st : RestoreStream) : Runtime :=
  match r.restoreList with
  | [] => { r with state := if fence then .fenced else .idle, stream := none }
  | j :: rest => { r with
      restoreList := rest
      stream := some { st with slot := some j, pos := .read 0, back := false, restored := st.restored + 1 } }

theorem goesOn_counted (r : Runtime) (fence : Bool) (st : RestoreStream) :
    ({ r with stream := some { st with slot := none, restored := st.restored + 1 } } : Runtime).goesOn fence
      { st with slot := none, restored := st.restored + 1 } = r.onward fence st := by
  unfold Runtime.goesOn Runtime.onward
  dsimp only
  cases h : r.restoreList <;> rfl

section Unrestored

variable {s : State} {d : Fin 4} {st : RestoreStream} {i : Nat} {e : PoolEntry} {l : List Nat} {es : List EventRec}

theorem unrestored_dom : (s.unrestored d st i e l es).dom d =
    { s.dom d with stream := some { st with slot := none, restored := st.restored + 1 } } :=
  getElem_set_domain.trans (if_pos rfl)

/-- With no write waiting for it the slot stays, and the rollback goes on or ends. -/
theorem beginRestore_unrestored (he : e.state ≠ .copying)
    (hcopy : ∀ x ∈ (s.dom d).restoreList, x ≠ i → (s.slot x).state ≠ .copying) :
    beginRestore d (s.unrestored d st i e l es) = { s.unrestored d st i e l es with
      domains := s.domains.set d ((s.dom d).onward (s.cfg d).fence st)
      events := if (s.dom d).restoreList = [] then
          (record (.aborted d st.epoch st.cause (st.restored + 1)) { s with events := es }).events else es } := by
  rw [beginRestore_goesOn (congrArg Runtime.stream unrestored_dom) rfl (by
    rw [unrestored_dom]
    exact fun x hx => notCopying_set (s := s) he (hcopy x hx)), unrestored_dom, goesOn_counted, State.closing, unrestored_dom,
    show (s.unrestored d st i e l es).domains = s.domains.set d _ from rfl, domains_set_set rfl]
  simp only [record_events]
  rfl

/-- A write of another domain takes the slot first; then the rollback goes on or ends. -/
theorem beginRestore_taken {h : Hit} (hcopy : ∀ x ∈ (s.dom d).restoreList, x ≠ i → (s.slot x).state ≠ .copying)
    (hd : h.domain ≠ d) (hi : i ∉ (s.dom d).restoreList) :
    beginRestore d (takeSlot h i [] (s.unrestored d st i e l es)) = { s.unrestored d st i e l es with
      freeQueue := []
      slotIndex := (s.slotIndex.filter fun x => decide (x.slot ≠ i)) ++ [{ region := h.region, record := h.record, slot := i }]
      copy := some { slot := i, pos := .read 0, back := false, sum := 0 }
      port := { s.port with stage := .copy }
      memPort := { s.memPort with boost := false }
      pool := s.pool.set i { state := .copying, domain := h.domain, epoch := (s.dom h.domain).committed + 1,
                             region := h.region, record := h.record }
      domains := (s.domains.set d ((s.dom d).onward (s.cfg d).fence st)).set h.domain { s.dom h.domain with
        state := .opened
        timer := if (s.dom h.domain).state = .idle then (s.cfg h.domain).deadline.toNat else (s.dom h.domain).timer
        members := (s.dom h.domain).members ++ [i] }
      events := if (s.dom d).restoreList = [] then
          (record (.aborted d st.epoch st.cause (st.restored + 1)) { s with events := es }).events else es } := by
  have hhit : (s.unrestored d st i e l es).dom h.domain = s.dom h.domain :=
    getElem_set_domain.trans (if_neg (Ne.symm hd))
  have hdom : (takeSlot h i [] (s.unrestored d st i e l es)).dom d =
      { s.dom d with stream := some { st with slot := none, restored := st.restored + 1 } } :=
    (getElem_set_domain.trans (if_neg hd)).trans (unrestored_dom (s := s) (i := i) (e := e) (l := l) (es := es))
  have hslot : ∀ x, x ≠ i → (takeSlot h i [] (s.unrestored d st i e l es)).slot x = s.slot x := by
    intro x hx
    rw [takeSlot_eq]
    refine (slot_set (s.unrestored d st i e l es) i x _).trans ?_
    rw [if_neg fun hix => hx hix.1.symm]
    exact (slot_set s i x e).trans (if_neg fun hix => hx hix.1.symm)
  rw [beginRestore_goesOn (congrArg Runtime.stream hdom) rfl (by
    rw [hdom]
    intro x hx
    have hxi : x ≠ i := fun h => hi (h ▸ hx)
    rw [hslot x hxi]
    exact hcopy x hx hxi), hdom, goesOn_counted, State.closing, hdom, takeSlot_eq, State.joined, hhit]
  have hpool : ∀ q, (s.unrestored d st i e l es).pool.set i q = s.pool.set i q := fun _ => List.set_set _
  have hdomains : ∀ q r, ((s.unrestored d st i e l es).domains.set h.domain q).set d r = (s.domains.set d r).set h.domain q := by
    intro q r
    rw [Vector.set_comm _ _ (fun hv => hd (Fin.ext hv))]
    exact congrArg (fun v : Vector Runtime 4 => v.set h.domain q) (domains_set_set rfl)
  rw [hpool]
  simp only [hdomains, record_events]
  rfl

end Unrestored

theorem restoreSlotDone_eq (d : Fin 4) (st : RestoreStream) (i : Nat) (s : State) :
    restoreSlotDone d st i s =
      beginRestore d (decideSlotAgain (s.unrestored d st i .freeEntry (s.freeQueue ++ [i]) s.events)) := rfl

theorem restoreTagFault_eq (d : Fin 4) (st : RestoreStream) (i : Nat) (s : State) :
    restoreTagFault d st i s = beginRestore d (decideSlotAgain (s.unrestored d st i .badEntry s.freeQueue
      (record (.mediaFault .restore (some i) (s.slotAddr i 0)) s).events)) := by
  unfold restoreTagFault
  dsimp only
  rw [record_eq]
  simp only [record_events]
  rfl

theorem restoreRecordFault_eq {d : Fin 4} {st : RestoreStream} {i : Nat} {at' : Addr} {s : State} (hg : s.port.stage ≠ .slot) :
    restoreRecordFault d st i at' s = { s with
      pool := movedPool .restoring .stranded (i :: (s.dom d).restoreList) s.pool
      events := (record (.domainFailed d st.epoch) (record (.aborted d st.epoch st.cause st.restored)
        (record (.mediaFault .restore (some i) at') s))).events
      domains := s.domains.set d { s.dom d with state := .failed, restoreList := [], stream := none } } := by
  unfold restoreRecordFault
  dsimp only
  rw [moveSlots_only_pool, moveSlots_pool _ _ (by decide), record_eq, record_eq, record_eq, decideSlotAgain_idle (by exact hg)]
  simp only [record_events, record_mask]
  rfl

/-! ### RESTORE_SLOT_COMPLETE (log 6) -/

section Takes

variable {s : State} {d : Fin 4} {st : RestoreStream} {i : Nat} {data : Word}

theorem restoreTakes_slotDone (hst : (s.dom d).stream = some st) (hi : st.slot = some i)
    (hn : restoreNext (s.slotRegion i).size s.layout.verify st.pos st.back data = .slotDone) :
    restoreTakes d data s = restoreSlotDone d st i s := by
  unfold restoreTakes
  rw [hst]
  dsimp only
  rw [hi]
  dsimp only
  rw [hn]

theorem restoreTakes_tagFault (hst : (s.dom d).stream = some st) (hi : st.slot = some i)
    (hn : restoreNext (s.slotRegion i).size s.layout.verify st.pos st.back data = .tagFault) :
    restoreTakes d data s = restoreTagFault d st i s := by
  unfold restoreTakes
  rw [hst]
  dsimp only
  rw [hi]
  dsimp only
  rw [hn]

theorem restoreTakes_recordFault (hst : (s.dom d).stream = some st) (hi : st.slot = some i)
    (hn : restoreNext (s.slotRegion i).size s.layout.verify st.pos st.back data = .recordFault) :
    restoreTakes d data s = restoreRecordFault d st i (restoreAddr s (s.slotRegion i) i (s.slot i).record st.pos) s := by
  unfold restoreTakes
  rw [hst]
  dsimp only
  rw [hi]
  dsimp only
  rw [hn]

end Takes

theorem exec_restoreSlotComplete {s : State} {f : Option Word} {a : Access} {d : Fin 4} {st : RestoreStream} {i : Nat}
    (h : s.InProgress (.restore d) a) (hm : s.mode ≠ .frozen) (hst : (s.dom d).stream = some st) (hi : st.slot = some i)
    (hn : restoreNext (s.slotRegion i).size s.layout.verify st.pos st.back (accessData f s.memory a) = .slotDone
      ∨ restoreNext (s.slotRegion i).size s.layout.verify st.pos st.back (accessData f s.memory a) = .tagFault) :
    exec (.restoreSlotComplete f) s = .next (settleStep true (restoreTakes d (accessData f s.memory a) (s.completed f a))) := by
  have he : exec (.restoreSlotComplete f) s = answer (completeWhen (fun a =>
    domainIndices.any fun d => a.liveFor (.restore d) && restoreEnds s d (accessData f s.memory a)) f) s := rfl
  have hends : restoreEnds s d (accessData f s.memory a) = true := by
    unfold restoreEnds
    rw [hst]
    dsimp only
    rw [hi]
    dsimp only
    obtain hn | hn := hn <;> rw [hn]
  rw [he, answer_powered h.1, completeWhen_some h.2.1 (List.any_eq_true.mpr
    ⟨d, mem_domainIndices d, by rw [State.InProgress.liveFor h, hends]; rfl⟩), completeAccess_inProgress h hm]
  rfl

/-- Settles O56: the tag done or faulted, and the record word faulted; who takes the slot; how the rollback goes on. -/
theorem restoredSlotsAreFreed : Obligations.RestoredSlotsAreFreed := by
  intro s f a d st i hin hns hnf hw hst hi
  dsimp only
  have hl : ∀ {u : State}, u.mode = s.mode → u.loadReady = false := fun h => loadReady_of_mode _ (h ▸ hns)
  refine ⟨fun hpos hcopy => ⟨fun hdone => ?_, fun hfails hnone => ?_⟩, fun k w hpos hfails hnone => ?_⟩
  · have hnext : restoreNext (s.slotRegion i).size s.layout.verify st.pos st.back (accessData f s.memory a) = .slotDone := by
      rw [hpos]
      exact restoreNext_tag_done (wordDone_data hdone)
    have hexec := exec_restoreSlotComplete hin hnf hst hi (.inl hnext)
    rw [restoreTakes_slotDone (s := s.completed f a) hst hi (by exact hnext), restoreSlotDone_eq] at hexec
    refine ⟨fun hnone => ?_, fun h hport hd hc hg hf hne hmem => ?_⟩
    · rw [decideSlotAgain_idle (by exact hnone.1), beginRestore_unrestored (s := s.completed f a) SlotState.noConfusion hcopy] at hexec
      obtain ⟨t, ht, -, hg⟩ := exec_granted hexec (hl rfl) hw
      refine ⟨t, ht, ?_⟩
      simp only [record_events] at hg ⊢
      exact hg
    · rw [decideSlotAgain_takes (s := (s.completed f a).unrestored d st i .freeEntry ((s.completed f a).freeQueue ++ [i]) _) (h := h) (i := i)
          (rest := []) hg (journalHit_eq hport hd hc) (congrArg (· ++ [i]) hf), beginRestore_taken (s := s.completed f a) hcopy hne hmem] at hexec
      obtain ⟨t, ht, -, hg⟩ := exec_granted hexec (hl rfl) (fun hv => PortState.noConfusion (hport.symm.trans hv))
      refine ⟨t, ht, ?_⟩
      simp only [record_events] at hg ⊢
      exact hg
  · obtain ⟨hv, hb, hne⟩ := wordFails_data hfails
    have hnext : restoreNext (s.slotRegion i).size s.layout.verify st.pos st.back (accessData f s.memory a) = .tagFault := by
      rw [hpos, hv, hb]
      exact restoreNext_tag_fails hne
    have hexec := exec_restoreSlotComplete hin hnf hst hi (.inr hnext)
    rw [restoreTakes_tagFault (s := s.completed f a) hst hi (by exact hnext), restoreTagFault_eq,
      decideSlotAgain_idle (by exact hnone.1), beginRestore_unrestored (s := s.completed f a) SlotState.noConfusion hcopy] at hexec
    obtain ⟨t, ht, -, hg⟩ := exec_granted hexec (hl rfl) hw
    refine ⟨t, ht, ?_⟩
    simp only [record_events, record_mask] at hg ⊢
    exact hg
  · obtain ⟨hv, hb, hne⟩ := wordFails_data hfails
    have hnext : restoreNext (s.slotRegion i).size s.layout.verify st.pos st.back (accessData f s.memory a) = .recordFault := by
      rw [hpos, hv, hb]
      exact restoreNext_word_fails hne
    have hexec := exec_memoryAccess_inProgress hin Claimant.noConfusion hnf f
    rw [deliver, restoreTakes_recordFault (s := s.completed f a) hst hi (by exact hnext), hpos,
      restoreRecordFault_eq (by exact hnone.1)] at hexec
    obtain ⟨t, ht, -, hg⟩ := exec_granted hexec (hl rfl) hw
    refine ⟨t, ht, ?_⟩
    simp only [record_events, record_mask] at hg ⊢
    exact hg

end Sys2Proof.Machine
end

section
/-! The ends of STARTING, and LOAD (R68, R70, R120, R121, R127). -/

namespace Sys2Proof.Machine

/-! ### The end of a hold (R68, R70) -/

theorem holds_of_open {m : Mode} (h : m = .guarding ∨ m = .bypass ∨ m = .unconfigured) (w : Bool) : m.holds w = false := by
  obtain rfl | rfl | rfl := h <;> rfl

theorem noLanes_of_lane {l : Lanes} (h : l.low = true ∨ l.high = true) : noLanes l = false := by
  unfold noLanes
  obtain h | h := h
  · rw [h]
    rfl
  · rw [h]
    exact Bool.and_false _

/-- An access that no rule of the mode stops passes to the memory (R71, R76, R84). -/
theorem takeAccess_passes {u : State} (hm : u.mode = .guarding ∨ u.mode = .bypass ∨ u.mode = .unconfigured)
    (hw : u.port.cycle.write = false ∨ u.port.cycle.lanes.low = true ∨ u.port.cycle.lanes.high = true)
    (hc : u.mode = .unconfigured ∨ classify u u.port.cycle.addr = .uncovered) :
    takeAccess u = { u with port := { u.port with
      state := .atMemory, cls := some (classify u u.port.cycle.addr), disp := some .pass, stage := .none } } := by
  have hread : readDisposition u u.port.cycle.alt (classify u u.port.cycle.addr) = .pass := by
    unfold readDisposition
    obtain hc | hc := hc
    · rw [hc]
    · rw [hc]
      obtain hm | hm | hm := hm <;> rw [hm]
  have hwrite : takeWrite (classify u u.port.cycle.addr) { u with port := { u.port with cls := some (classify u u.port.cycle.addr) } } =
      passAccess .pass { u with port := { u.port with cls := some (classify u u.port.cycle.addr) } } := by
    unfold takeWrite
    obtain hc | hc := hc
    · rw [show ({ u with port := { u.port with cls := some (classify u u.port.cycle.addr) } } : State).mode = .unconfigured from hc]
    · rw [hc]
      dsimp only
      obtain hm | hm | hm := hm <;> rw [hm]
  unfold takeAccess
  dsimp only
  by_cases hstore : u.port.cycle.write = true
  · have hlanes : noLanes u.port.cycle.lanes = false := by
      obtain h | h := hw
      · rw [hstore] at h
        cases h
      · exact noLanes_of_lane h
    rw [if_pos hstore, hlanes, if_neg (by decide), hwrite]
    rfl
  · rw [if_neg hstore, hread]
    rfl

/-- The Host Port released at the end of a hold (R68, R70). -/
theorem released_endHold {u : State} (hm : u.mode = .guarding ∨ u.mode = .bypass ∨ u.mode = .unconfigured) (hw : u.NoCycleWaits) :
    u.Released (settleStep true (endHold u)) := by
  have hl : ∀ p, ({ u with port := p } : State).loadReady = false := fun p => loadReady_of_mode _ (by
    obtain h | h | h := hm <;> exact fun hs => Mode.noConfusion (h.symm.trans hs))
  refine ⟨fun hst => ?_, fun hst hd hf => ?_, fun hst hlanes hc => ?_⟩
  · have hstays : endHold u = u := by
      unfold endHold
      obtain h | h | h := hst <;> rw [h]
    rw [hstays]
    exact settleStep_granted true u (hl _) hw
  · have hcloses : endHold u = { u with port := u.port.ended .ended } := by
      unfold endHold HostPort.ended
      rw [hst]
      dsimp only
      rw [if_pos hd, ← hd]
      rfl
    rw [hcloses]
    exact settleStep_granted true _ (hl _) (HostPort.ended_waiting _ hf)
  · have htaken : endHold u = takeAccess u := by
      unfold endHold
      rw [hst]
      exact if_neg (by rw [holds_of_open hm]; decide)
    rw [htaken, takeAccess_passes hm hlanes hc]
    exact settleStep_granted true _ (hl _) (fun hv => PortState.noConfusion hv)

/-- An instruction that ends a hold leaves the Host Port released. -/
theorem exec_released {c : Instr} {s u : State} (h : exec c s = .next (settleStep true (endHold u)))
    (hm : u.mode = .guarding ∨ u.mode = .bypass ∨ u.mode = .unconfigured) (hw : u.NoCycleWaits) :
    ∃ t, exec c s = .next t ∧ u.Released t := ⟨_, h, released_endHold hm hw⟩

theorem unlessFrozen_of_starting {s : State} (h : s.mode = .starting) (ended : State) : unlessFrozen s ended = ended :=
  if_neg (by rw [h]; exact Mode.noConfusion)

/-- RESTORE takes the next listed slot, or STARTING ends (R124, R126). -/
theorem restoresOn_nextRestore {u : State} (hm : u.mode = .starting) (hw : u.NoCycleWaits) :
    u.RestoresOn (settleStep true (nextRestore u)) := by
  refine ⟨fun rest it hlist => ?_, fun hlist => ?_⟩
  · have hnext : nextRestore u = { u with recovery := { u.recovery with list := rest, pos := .restore it (.read 0) false } } := by
      unfold nextRestore
      rw [hlist, List.getLast?_append, List.getLast?_singleton]
      dsimp only
      rw [List.dropLast_concat]
      rfl
    rw [hnext]
    exact settleStep_granted true _ (loadReady_of_pos RecPos.noConfusion) hw
  · have hend : nextRestore u = endHold u.started := by
      unfold nextRestore
      rw [hlist, List.getLast?_nil, unlessFrozen_of_starting hm, endStarting_eq]
    rw [hend]
    exact released_endHold (.inl rfl) hw

theorem exec_restoresOn {c : Instr} {s u : State} (h : exec c s = .next (settleStep true (nextRestore u))) (hm : u.mode = .starting)
    (hw : u.NoCycleWaits) : ∃ t, exec c s = .next t ∧ u.RestoresOn t := ⟨_, h, restoresOn_nextRestore hm hw⟩

/-! ### LOAD (R120, R121) -/

theorem sequenceHigher_iff (b a : Word) : sequenceHigher b a = true ↔ 1 ≤ (b - a).toNat ∧ (b - a).toNat ≤ 32767 := by
  simp [sequenceHigher]

/-- LOAD's choice as R121 says it: copy A unless copy B is the only valid one or the one of the higher sequence. -/
theorem chooseCopy_eq_some {a b : Option (Word × Layout)} {c : Chosen}
    (h : (∃ qa la, a = some (qa, la) ∧ c = { copy := .a, sequence := qa, layout := la }
          ∧ ∀ qb lb, b = some (qb, lb) → ¬ (1 ≤ (qb - qa).toNat ∧ (qb - qa).toNat ≤ 32767))
        ∨ (∃ qb lb, b = some (qb, lb) ∧ c = { copy := .b, sequence := qb, layout := lb }
          ∧ ∀ qa la, a = some (qa, la) → 1 ≤ (qb - qa).toNat ∧ (qb - qa).toNat ≤ 32767)) : chooseCopy a b = some c := by
  obtain ⟨qa, la, rfl, rfl, hb⟩ | ⟨qb, lb, rfl, rfl, ha⟩ := h
  · cases b with
    | none => rfl
    | some p => exact if_neg fun hs => hb p.1 p.2 rfl ((sequenceHigher_iff _ _).mp hs)
  · cases a with
    | none => rfl
    | some p => exact if_pos ((sequenceHigher_iff _ _).mpr (ha p.1 p.2 rfl))

/-- The choice is made when both copies have been read. -/
def State.chosenWith (s : State) (ws : List Word) (data : Word) : Option Chosen :=
  chooseCopy (readCopy s.logStart ((ws ++ [data]).take 128)) (readCopy s.logStart ((ws ++ [data]).drop 128))

theorem chosenWith_eq {s : State} {ws : List Word} (h : ws.length = 255) (data : Word) :
    s.chosenWith ws data = chooseCopy (readCopy (logStartOf s.loc) (ws.take 128))
      (readCopy (logStartOf s.loc) (ws.drop 128 ++ [data])) := by
  unfold State.chosenWith
  rw [List.take_append_of_le_length (by omega), List.drop_append_of_le_length (by omega)]
  rfl

/-- SCAN begins at slot 0 of the chosen layout (R121). -/
theorem loadAdopts_eq {s : State} (hm : s.mode = .starting) {c : Chosen} (h : 0 < c.layout.geometry.slots) :
    loadAdopts c s = { s with
      layout := c.layout, activeCopy := some c.copy, activeSequence := c.sequence, geometry := c.layout.geometry
      recovery := { s.recovery with phase := .scan, scanPos := 0, pos := .scan .tag false } } := by
  unfold loadAdopts
  rw [unlessFrozen_of_starting hm]
  exact if_pos h

/-- The recovery hands its word on outside FROZEN (R103). -/
theorem exec_recovery {s : State} {f : Option Word} {a : Access} (h : s.InProgress .recovery a) (hm : s.mode = .starting) :
    exec (.memoryAccessComplete f) s = .next (settleStep true (recoveryTakes (accessData f s.memory a) (s.completed f a))) :=
  exec_memoryAccess_inProgress h Claimant.noConfusion (by rw [hm]; exact Mode.noConfusion) f

/-- LOAD_COMPLETE at the word that ends LOAD (log 6). -/
theorem exec_loadComplete {s : State} {f : Option Word} {a : Access} (h : s.InProgress .recovery a) (hm : s.mode = .starting)
    (he : loadEnds s (accessData f s.memory a) = true) :
    exec (.loadComplete f) s = .next (settleStep true (recoveryTakes (accessData f s.memory a) (s.completed f a))) := by
  have hexec : exec (.loadComplete f) s =
    answer (completeWhen (fun a => a.liveFor .recovery && loadEnds s (accessData f s.memory a)) f) s := rfl
  rw [hexec, answer_powered h.1, completeWhen_some h.2.1 (by rw [State.InProgress.liveFor h, he]; rfl),
    completeAccess_inProgress h (by rw [hm]; exact Mode.noConfusion)]
  rfl

section Load

variable {s : State} {ws : List Word} {data : Word} {c : Chosen}

theorem recoveryTakes_copies (hp : s.recovery.pos = .copies ws) : recoveryTakes data s = loadCopyTakes ws data s := by
  unfold recoveryTakes
  rw [hp]

theorem loadCopyTakes_more (hn : ws.length < 255) :
    loadCopyTakes ws data s = { s with recovery := { s.recovery with pos := .copies (ws ++ [data]) } } :=
  if_pos (by omega)

theorem loadCopyTakes_chooses (hn : ws.length = 255) : loadCopyTakes ws data s = loadChooses (ws ++ [data]) s :=
  if_neg (by omega)

theorem loadChooses_none (hm : s.mode = .starting) (h : s.chosenWith ws data = none) :
    loadChooses (ws ++ [data]) s = endHold s.unconfiguredStart := by
  unfold State.chosenWith at h
  unfold loadChooses
  rw [h]
  dsimp only
  rw [unlessFrozen_of_starting hm, endUnconfigured_eq]

theorem loadChooses_adopts (h : s.chosenWith ws data = some c) (hd : c.layout.enabledDomains = []) :
    loadChooses (ws ++ [data]) s = loadAdopts c { s with recovery := { s.recovery with chosen := some c } } := by
  unfold State.chosenWith at h
  unfold loadChooses
  rw [h]
  dsimp only
  rw [hd]
  rfl

theorem loadChooses_epochs {d : Fin 4} {rest : List (Fin 4)} (h : s.chosenWith ws data = some c)
    (hd : c.layout.enabledDomains = d :: rest) :
    loadChooses (ws ++ [data]) s = { s with recovery := { s.recovery with chosen := some c, pos := .epochs (d :: rest) } } := by
  unfold State.chosenWith at h
  unfold loadChooses
  rw [h]
  dsimp only
  rw [hd]
  rfl

theorem recoveryTakes_epochs {ds : List (Fin 4)} (hp : s.recovery.pos = .epochs ds) :
    recoveryTakes data s = loadEpochTakes ds data s := by
  unfold recoveryTakes
  rw [hp]

theorem loadEpochTakes_last {d : Fin 4} (hc : s.recovery.chosen = some c) :
    loadEpochTakes [d] data s = loadAdopts c { s with
      recovery := { s.recovery with chosen := some c, epochs := s.recovery.epochs.set d data, pos := .epochs [] } } := by
  unfold loadEpochTakes
  dsimp only
  rw [hc]
  rfl

theorem loadEnds_copies (hp : s.recovery.pos = .copies ws) (hn : ws.length = 255)
    (h : s.chosenWith ws data = none ∨ ∃ c, s.chosenWith ws data = some c ∧ c.layout.enabledDomains = []) :
    loadEnds s data = true := by
  unfold State.chosenWith at h
  unfold loadEnds
  rw [hp]
  dsimp only
  rw [hn]
  obtain h | ⟨c, h, hd⟩ := h
  · rw [h]
    rfl
  · rw [h]
    dsimp only
    rw [hd]
    rfl

theorem loadEnds_epochs {d : Fin 4} (hp : s.recovery.pos = .epochs [d]) : loadEnds s data = true := by
  unfold loadEnds
  rw [hp]
  rfl

end Load

/-- Settles O57: the words before the 256th, the choice, and the epochs of the chosen copy. -/
theorem loadChoosesACopy : Obligations.LoadChoosesACopy := by
  intro s f a hin hm har hw
  have hexec := exec_recovery (f := f) hin hm
  have hload := exec_loadComplete (f := f) hin hm
  rw [accessData_of_read har] at hexec hload
  dsimp only
  have goesTo : ∀ {r : Recovery}, recoveryTakes (s.wordRead f a) (s.completed f a) = { s.completed f a with recovery := r } →
      r.pos ≠ .idle → ∃ t, exec (.memoryAccessComplete f) s = .next t ∧ Granted { s.completed f a with recovery := r } t := by
    intro r hr hpos
    rw [hr] at hexec
    exact ⟨_, hexec, settleStep_granted true _ (loadReady_of_pos hpos) hw⟩
  have adopts : ∀ {c : Chosen} {epochs : Vector Word 4} {pos : RecPos}, loadEnds s (s.wordRead f a) = true →
      recoveryTakes (s.wordRead f a) (s.completed f a) = loadAdopts c { s.completed f a with
        recovery := { s.recovery with chosen := some c, epochs := epochs, pos := pos } } →
      0 < c.layout.geometry.slots → ∃ t, exec (.loadComplete f) s = .next t
        ∧ Granted { s.completed f a with
            layout := c.layout, activeCopy := some c.copy, activeSequence := c.sequence, geometry := c.layout.geometry
            recovery := { s.recovery with
              chosen := some c, epochs := epochs, phase := .scan, scanPos := 0, pos := .scan .tag false } } t := by
    intro c epochs pos hends htakes hslots
    have hexec := hload hends
    rw [htakes, loadAdopts_eq (by exact hm) hslots] at hexec
    exact ⟨_, hexec, settleStep_granted true _ (loadReady_of_pos RecPos.noConfusion) hw⟩
  refine ⟨fun ws hp hn => ?_, fun ws hp hn => ⟨fun ha hb => ?_, fun c hc => ⟨fun d rest hd => ?_, fun hd => ?_⟩⟩,
    fun d rest c hp hc => ⟨fun e more hrest => ?_, fun hrest => ?_⟩⟩
  · exact goesTo ((recoveryTakes_copies (s := s.completed f a) hp).trans (loadCopyTakes_more hn)) RecPos.noConfusion
  · have hchosen : s.chosenWith ws (s.wordRead f a) = none := by
      rw [chosenWith_eq hn, ha, hb]
      rfl
    have hexec := hload (loadEnds_copies hp hn (.inl hchosen))
    rw [recoveryTakes_copies (s := s.completed f a) hp, loadCopyTakes_chooses hn,
      loadChooses_none (s := s.completed f a) hm hchosen] at hexec
    obtain ⟨t, ht, hreleased⟩ := exec_released hexec (.inr (.inr rfl)) hw
    refine ⟨t, ht, ?_⟩
    simp only [State.unconfiguredStart, record_events] at hreleased ⊢
    exact hreleased
  · have hchosen : s.chosenWith ws (s.wordRead f a) = some c := (chosenWith_eq hn _).trans (chooseCopy_eq_some hc)
    refine goesTo ?_ RecPos.noConfusion
    rw [recoveryTakes_copies (s := s.completed f a) hp, loadCopyTakes_chooses hn,
      loadChooses_epochs (s := s.completed f a) hchosen hd]
    rfl
  · have hchosen : s.chosenWith ws (s.wordRead f a) = some c := (chosenWith_eq hn _).trans (chooseCopy_eq_some hc)
    refine adopts (pos := s.recovery.pos) (loadEnds_copies hp hn (.inr ⟨c, hchosen, hd⟩)) ?_
    rw [recoveryTakes_copies (s := s.completed f a) hp, loadCopyTakes_chooses hn, loadChooses_adopts (s := s.completed f a) hchosen hd]
    rfl
  · subst hrest
    exact goesTo (recoveryTakes_epochs (s := s.completed f a) hp) RecPos.noConfusion
  · subst hrest
    exact adopts (pos := .epochs []) (loadEnds_epochs hp)
      ((recoveryTakes_epochs (s := s.completed f a) hp).trans (loadEpochTakes_last (s := s.completed f a) hc))

end Sys2Proof.Machine
end

section
/-! RESTORE and SCAN in recovery (R122 to R126). -/

namespace Sys2Proof.Machine

/-! ### RESTORE (R124, R125) -/

/-- RECOVERY_RESTORE_COMPLETE at the word that ends RESTORE's work on a slot (log 6). -/
theorem exec_recoveryRestoreComplete {s : State} {f : Option Word} {a : Access} {it : RecItem} {pos : RestorePos} {back : Bool}
    (h : s.InProgress .recovery a) (hm : s.mode = .starting) (hp : s.recovery.pos = .restore it pos back)
    (hn : ∀ pos' back', restoreNext it.size s.layout.verify pos back (accessData f s.memory a) ≠ .more pos' back') :
    exec (.recoveryRestoreComplete f) s =
      .next (settleStep true (recoveryRestoreTakes it pos back (accessData f s.memory a) (s.completed f a))) := by
  have hexec : exec (.recoveryRestoreComplete f) s =
    answer (completeWhen (fun a => a.liveFor .recovery && recoveryRestoreEnds s (accessData f s.memory a)) f) s := rfl
  have hends : recoveryRestoreEnds s (accessData f s.memory a) = true := by
    unfold recoveryRestoreEnds
    rw [hp]
    dsimp only
    split
    next hmore => exact absurd hmore (hn _ _)
    next => rfl
  have htakes : recoveryTakes (accessData f s.memory a) (s.completed f a) =
      recoveryRestoreTakes it pos back (accessData f s.memory a) (s.completed f a) := by
    unfold recoveryTakes
    rw [show (s.completed f a).recovery.pos = .restore it pos back from hp]
  rw [hexec, answer_powered h.1, completeWhen_some h.2.1 (by rw [State.InProgress.liveFor h, hends]; rfl),
    completeAccess_inProgress h (by rw [hm]; exact Mode.noConfusion), ← htakes]
  rfl

/-- The recovery record after a slot's restore in RESTORE (R124, R125). -/
def Recovery.restored (r : Recovery) (it : RecItem) (o : SlotOutcome) (bad : Nat) : Recovery := { r with
  outcomes := r.outcomes.set it.slot o
  counts := { r.counts with restored := r.counts.restored + 1, bad := r.counts.bad + bad }
  restoredDomains := r.restoredDomains.set it.domain true }

theorem recoveryTagFault_eq (it : RecItem) (s : State) :
    recoveryTagFault it s = nextRestore { s with
      recovery := s.recovery.restored it .bad 1
      events := (record (.mediaFault .recovery (some it.slot) (s.slotAddr it.slot 0)) s).events } := by
  unfold recoveryTagFault
  dsimp only
  rw [record_eq]
  simp only [record_events]
  rfl

theorem recoveryRecordFault_eq (it : RecItem) (at' : Addr) (s : State) :
    recoveryRecordFault it at' s = nextRestore { s with
      events := (record (.mediaFault .recovery (some it.slot) at') s).events
      recovery := { s.recovery with
        list := s.recovery.list.filter fun x => decide (x.domain ≠ it.domain)
        outcomes := (it :: s.recovery.list.filter fun x => decide (x.domain = it.domain)).foldl
          (fun o x => o.set x.slot (.stranded x)) s.recovery.outcomes
        counts := { s.recovery.counts with
          stranded := s.recovery.counts.stranded + (it :: s.recovery.list.filter fun x => decide (x.domain = it.domain)).length }
        failedDomains := s.recovery.failedDomains.set it.domain true } } := by
  unfold recoveryRecordFault
  dsimp only
  rw [record_eq]
  simp only [record_events]
  rfl

/-- Settles O59: the tag done or faulted and the record word faulted, each before the next listed slot or the end of STARTING. -/
theorem recoveryRestoresAndEndsStarting : Obligations.RecoveryRestoresAndEndsStarting := by
  intro s f a it pos back hin hm hw hp hph
  dsimp only
  have hexec := fun hn => exec_recoveryRestoreComplete (f := f) hin hm hp hn
  refine ⟨fun hpos hdone => ?_, fun hpos hfails => ?_, fun k w hpos hfails => ?_⟩
  · subst hpos
    have hnext := restoreNext_tag_done (n := it.size) (wordDone_data hdone)
    have hexec := hexec (by rw [hnext]; exact fun _ _ => RestoreOut.noConfusion)
    have htakes : recoveryRestoreTakes it .tag back (accessData f s.memory a) (s.completed f a) =
        nextRestore { s.completed f a with recovery := s.recovery.restored it .free 0 } := by
      unfold recoveryRestoreTakes
      rw [show restoreNext it.size (s.completed f a).layout.verify .tag back _ = .slotDone from hnext]
      rfl
    rw [htakes] at hexec
    exact exec_restoresOn hexec hm hw
  · subst hpos
    obtain ⟨hv, hb, hne⟩ := wordFails_data hfails
    have hnext : restoreNext it.size s.layout.verify .tag back (accessData f s.memory a) = .tagFault := by
      rw [hv, hb]
      exact restoreNext_tag_fails hne
    have hexec := hexec (by rw [hnext]; exact fun _ _ => RestoreOut.noConfusion)
    have htakes : recoveryRestoreTakes it .tag back (accessData f s.memory a) (s.completed f a) =
        recoveryTagFault it (s.completed f a) := by
      unfold recoveryRestoreTakes
      rw [show restoreNext it.size (s.completed f a).layout.verify .tag back _ = .tagFault from hnext]
    rw [htakes, recoveryTagFault_eq] at hexec
    obtain ⟨t, ht, hgoes⟩ := exec_restoresOn hexec hm hw
    refine ⟨t, ht, ?_⟩
    simp only [record_events] at hgoes ⊢
    exact hgoes
  · subst hpos
    obtain ⟨hv, hb, hne⟩ := wordFails_data hfails
    have hnext : restoreNext it.size s.layout.verify (.word k w) back (accessData f s.memory a) = .recordFault := by
      rw [hv, hb]
      exact restoreNext_word_fails hne
    have hexec := hexec (by rw [hnext]; exact fun _ _ => RestoreOut.noConfusion)
    have htakes : recoveryRestoreTakes it (.word k w) back (accessData f s.memory a) (s.completed f a) =
        recoveryRecordFault it (BitVec.ofNat 19 ((s.layout.regions[it.region]).wordAt it.record k)) (s.completed f a) := by
      unfold recoveryRestoreTakes
      rw [show restoreNext it.size (s.completed f a).layout.verify (.word k w) back _ = .recordFault from hnext]
      rfl
    rw [htakes, recoveryRecordFault_eq] at hexec
    obtain ⟨t, ht, hgoes⟩ := exec_restoresOn hexec hm hw
    refine ⟨t, ht, ?_⟩
    simp only [record_events] at hgoes ⊢
    exact hgoes

/-! ### SCAN (R122, R123) -/

/-- A tag names a domain when it is the live tag of that domain (R178). -/
theorem tagDomain_eq_some_iff (w : Word) (d : Fin 4) : tagDomain w = some d ↔ w = 0xA600 + BitVec.ofNat 16 d.val := by
  unfold tagDomain
  constructor
  · intro h
    split at h
    next hw => cases h; exact hw
    next =>
      split at h
      next hw => cases h; exact hw
      next =>
        split at h
        next hw => cases h; exact hw
        next =>
          split at h
          next hw => cases h; exact hw
          next => cases h
  · rintro rfl
    revert d
    decide

theorem liveTag_ne_zero : ∀ d : Fin 4, (0xA600 + BitVec.ofNat 16 d.val : Word) ≠ 0 := by decide

theorem locatorValid_iff (s : State) (d : Fin 4) (loc : Word) : locatorValid s d loc = true ↔
    s.layout.regions[locatorRegion loc].active = true ∧ s.layout.regions[locatorRegion loc].kind ≠ .fixed
      ∧ s.layout.regions[locatorRegion loc].domain = d ∧ loc.toNat % 4096 < s.layout.regions[locatorRegion loc].count := by
  simp only [locatorValid, Bool.and_eq_true, decide_eq_true_eq, and_assoc]
  rfl

theorem lists_iff (r : Recovery) (loc : Word) : r.lists (locatorRegion loc) (locatorRecord loc) = true ↔
    ∃ it ∈ r.list, it.region = locatorRegion loc ∧ it.record = loc.toNat % 4096 := by
  simp only [Recovery.lists, List.any_eq_true, Bool.and_eq_true, decide_eq_true_eq]
  rfl

/-- The slot at the scan position is settled: the next slot follows, or RESTORE, or the end of STARTING (R122, R124, R126). -/
theorem settles_scanSettles {u : State} (hm : u.mode = .starting) (hw : u.NoCycleWaits) (hph : u.recovery.phase = .scan)
    (o : SlotOutcome) :
    (u.recovery.scanPos + 1 < u.geometry.slots → Granted { u with recovery := { u.recovery with
        outcomes := u.recovery.outcomes ++ [o], scanPos := u.recovery.scanPos + 1, phase := .scan, pos := .scan .tag false } }
        (settleStep true (scanSettles o u)))
    ∧ (u.geometry.slots ≤ u.recovery.scanPos + 1 → State.RestoresOn { u with recovery := { u.recovery with
        outcomes := u.recovery.outcomes ++ [o], scanPos := u.recovery.scanPos + 1, phase := .restore } }
        (settleStep true (scanSettles o u))) := by
  refine ⟨fun hlt => ?_, fun hge => ?_⟩
  · have hnext : scanSettles o u = { u with recovery := { u.recovery with
        outcomes := u.recovery.outcomes ++ [o], scanPos := u.recovery.scanPos + 1, phase := .scan, pos := .scan .tag false } } := by
      rw [← hph]
      exact if_pos hlt
    rw [hnext]
    exact settleStep_granted true _ (loadReady_of_pos RecPos.noConfusion) hw
  · have hnext : scanSettles o u = nextRestore { u with recovery := { u.recovery with
        outcomes := u.recovery.outcomes ++ [o], scanPos := u.recovery.scanPos + 1, phase := .restore } } :=
      if_neg (Nat.not_lt.mpr hge)
    rw [hnext]
    exact restoresOn_nextRestore hm hw

theorem recoveryTakes_scan {s : State} {p : ScanPos} {back : Bool} {data : Word} (hp : s.recovery.pos = .scan p back) :
    recoveryTakes data s = scanTakes p back data s := by
  unfold recoveryTakes
  rw [hp]

/-- SCAN_SLOT_JUDGED at the word that ends SCAN's work on a slot (log 6). -/
theorem exec_scanSlotJudged {s : State} {f : Option Word} {a : Access} {p : ScanPos} {back : Bool}
    (h : s.InProgress .recovery a) (hm : s.mode = .starting) (hp : s.recovery.pos = .scan p back)
    (hends : scanEnds s (accessData f s.memory a) = true) :
    exec (.scanSlotJudged f) s =
      .next (settleStep true (scanTakes p back (accessData f s.memory a) (s.completed f a))) := by
  have hexec : exec (.scanSlotJudged f) s =
    answer (completeWhen (fun a => a.liveFor .recovery && scanEnds s (accessData f s.memory a)) f) s := rfl
  rw [hexec, answer_powered h.1, completeWhen_some h.2.1 (by rw [State.InProgress.liveFor h, hends]; rfl),
    completeAccess_inProgress h (by rw [hm]; exact Mode.noConfusion), ← recoveryTakes_scan (s := s.completed f a) hp]
  rfl

section Verdict

variable {s : State} {data : Word}

theorem scanTakes_tag_clear {back : Bool} (h0 : data ≠ 0)
    (h : ∀ d : Fin 4, data = 0xA600 + BitVec.ofNat 16 d.val → (s.cfg d).enabled = false) :
    scanTakes .tag back data s = scanClear .stale s := by
  unfold scanTakes
  dsimp only
  rw [if_neg h0]
  cases htag : tagDomain data with
  | none => rfl
  | some d => exact if_neg (by rw [h d ((tagDomain_eq_some_iff data d).mp htag)]; decide)

theorem scanTakes_tag_live {back : Bool} {d : Fin 4} (h : data = 0xA600 + BitVec.ofNat 16 d.val) (he : (s.cfg d).enabled = true) :
    scanTakes .tag back data s = { s with recovery := { s.recovery with pos := .scan (.epoch d) false } } := by
  have h0 : data ≠ 0 := h ▸ liveTag_ne_zero d
  unfold scanTakes
  dsimp only
  rw [if_neg h0, (tagDomain_eq_some_iff data d).mpr h]
  exact if_pos he

theorem scanTakes_image_last {d : Fin 4} {epoch loc chk sum : Word} {k : Nat} {back : Bool}
    (h : s.layout.regions[locatorRegion loc].size ≤ k + 1) :
    scanTakes (.image d epoch loc chk k sum) back data s = scanJudge d epoch loc chk (sum + data) s :=
  if_neg (Nat.not_lt.mpr h)

theorem scanTakes_clear_done {j : Judgement} {back : Bool}
    (h : s.layout.verify = false ∧ back = false ∨ s.layout.verify = true ∧ back = true ∧ data = 0) :
    scanTakes (.clear j) back data s = scanCleared j s := by
  unfold scanTakes
  dsimp only
  obtain ⟨hv, rfl⟩ | ⟨-, rfl, rfl⟩ := h
  · rw [hv]
    rfl
  · rfl

theorem scanClearFault_eq (j : Judgement) (s : State) :
    scanClearFault j s = scanSettles .bad { s with
      events := (record (.mediaFault .recovery (some s.recovery.scanPos) (s.slotAddr s.recovery.scanPos 0)) s).events
      recovery := { s.recovery with counts := { s.recovery.counts.add j with bad := (s.recovery.counts.add j).bad + 1 } } } := by
  unfold scanClearFault
  dsimp only
  rw [record_eq]
  simp only [record_events]
  rfl

end Verdict

/-- Settles O58: each word's verdict, and the settled slot before the next one. -/
theorem scanJudgesEachSlot : Obligations.ScanJudgesEachSlot := by
  intro s f a p back hin hm hw hp hph
  dsimp only
  have hexec := exec_recovery (f := f) hin hm
  rw [recoveryTakes_scan (s := s.completed f a) hp] at hexec
  have goesTo : ∀ {p' : ScanPos} {back' : Bool}, scanTakes p back (accessData f s.memory a) (s.completed f a) =
      { s.completed f a with recovery := { s.recovery with pos := .scan p' back' } } →
      ∃ t, exec (.memoryAccessComplete f) s = .next t
        ∧ Granted { s.completed f a with recovery := { s.recovery with pos := .scan p' back' } } t := by
    intro p' back' htakes
    rw [htakes] at hexec
    exact ⟨_, hexec, settleStep_granted true _ (loadReady_of_pos RecPos.noConfusion) hw⟩
  have settled : ∀ {o : SlotOutcome} {u : State}, scanEnds s (accessData f s.memory a) = true →
      scanTakes p back (accessData f s.memory a) (s.completed f a) = scanSettles o u →
      u.mode = .starting → u.NoCycleWaits → u.recovery.phase = .scan → ∃ t, exec (.scanSlotJudged f) s = .next t
        ∧ (u.recovery.scanPos + 1 < u.geometry.slots → Granted { u with recovery := { u.recovery with
          outcomes := u.recovery.outcomes ++ [o], scanPos := u.recovery.scanPos + 1, phase := .scan, pos := .scan .tag false } } t)
        ∧ (u.geometry.slots ≤ u.recovery.scanPos + 1 → State.RestoresOn { u with recovery := { u.recovery with
          outcomes := u.recovery.outcomes ++ [o], scanPos := u.recovery.scanPos + 1, phase := .restore } } t) := by
    intro o u hends htakes hum huw huph
    exact ⟨_, (exec_scanSlotJudged hin hm hp hends).trans (by rw [htakes]), settles_scanSettles hum huw huph o⟩
  refine ⟨fun hpos har => ?_, fun d hpos har => ?_, fun d epoch hpos har => ?_, fun d epoch loc hpos har => ?_,
    fun d epoch loc chk k sum hpos har => ?_, fun j hpos => ?_⟩
  all_goals subst hpos
  · rw [accessData_of_read har] at goesTo settled
    refine ⟨fun h0 => ?_, fun h0 hno => ?_, fun d hd he => ?_⟩
    · exact settled (u := s.completed f a) (by unfold scanEnds; rw [hp]; exact decide_eq_true h0) (if_pos h0) hm hw hph
    · exact goesTo (scanTakes_tag_clear (s := s.completed f a) h0 hno)
    · exact goesTo (scanTakes_tag_live (s := s.completed f a) hd he)
  · rw [accessData_of_read har] at goesTo
    exact goesTo rfl
  · rw [accessData_of_read har] at goesTo
    refine ⟨fun hvalid => goesTo (if_pos ?_), fun hinvalid => goesTo (if_neg ?_)⟩
    · exact (locatorValid_iff (s.completed f a) d _).mpr hvalid
    · exact fun h => hinvalid ((locatorValid_iff (s.completed f a) d _).mp h)
  · rw [accessData_of_read har] at goesTo
    exact goesTo rfl
  · rw [accessData_of_read har] at goesTo settled
    refine ⟨fun hk => goesTo (if_pos hk), fun hk => ?_⟩
    have hjudge := scanTakes_image_last (s := s.completed f a) (data := s.wordRead f a) (d := d) (epoch := epoch) (chk := chk)
      (sum := sum) (back := back) hk
    refine ⟨fun hno => goesTo (hjudge.trans (if_pos hno)), fun hsound he => goesTo (hjudge.trans ?_),
      fun hsound he hold => goesTo (hjudge.trans ?_), fun hsound he hno => ?_⟩
    · exact (if_neg (not_not.mpr hsound)).trans (if_pos he)
    · refine (if_neg (not_not.mpr hsound)).trans ((if_neg he).trans (if_neg fun h => ?_))
      obtain hne | hlisted := hold
      · exact hne h.1
      · exact Bool.eq_false_iff.mp h.2 ((lists_iff s.recovery loc).mpr hlisted)
    · have hnot : s.recovery.lists (locatorRegion loc) (locatorRecord loc) = false :=
        Bool.eq_false_iff.mpr fun h => hno ((lists_iff s.recovery loc).mp h)
      have hne : epoch ≠ s.recovery.epochs[d] := by rw [he]; simp
      refine settled (u := { s.completed f a with recovery := { s.recovery with
          list := s.recovery.list ++ [scanItem (s.completed f a) d epoch loc] } }) ?_ (hjudge.trans ?_) hm hw hph
      · unfold scanEnds scanLists
        rw [hp]
        dsimp only
        rw [decide_eq_false (Nat.not_lt.mpr hk), hnot, decide_eq_true he, decide_eq_true hne, decide_eq_true (by exact hsound)]
        rfl
      · exact (if_neg (not_not.mpr hsound)).trans ((if_neg hne).trans (if_pos ⟨he, hnot⟩))
  · refine ⟨fun hv hb haw => goesTo ?_, fun hdone => ?_, fun hfails => ?_⟩
    · subst hb
      exact if_pos hv
    · refine settled (u := { s.completed f a with recovery := { s.recovery with counts := s.recovery.counts.add j } }) ?_
        (scanTakes_clear_done (s := s.completed f a) (wordDone_data hdone)) hm hw hph
      unfold scanEnds
      rw [hp]
      obtain ⟨hv, -⟩ | ⟨-, hb, -⟩ := wordDone_data hdone
      · rw [hv]
        exact Bool.or_true _
      · rw [hb]
        rfl
    · obtain ⟨hv, rfl, hne⟩ := wordFails_data hfails
      obtain ⟨t, ht, hnext, hlast⟩ := settled (by unfold scanEnds; rw [hp]; rfl)
        ((if_neg hne : scanTakes (.clear j) true _ (s.completed f a) = scanClearFault j (s.completed f a)).trans
          (scanClearFault_eq j _)) hm hw hph
      refine ⟨t, ht, fun h => ?_, fun h => ?_⟩
      · have hg := hnext h
        simp only [record_events] at hg ⊢
        exact hg
      · have hg := hlast h
        simp only [record_events] at hg ⊢
        exact hg

end Sys2Proof.Machine
end

section
/-! The INSTALL operation, word by word, to the adoption or the warm restart (R160 to R164). -/

namespace Sys2Proof.Machine

/-! ### What the install stream does with a word -/

section Takes

variable {s : State} {st : InstallStream} {data : Word}

theorem installTakes_writes (hst : s.install = some st) (hw : ∀ ds, st.step ≠ .epochs ds) :
    installTakes data s =
      if st.back then if data = (installWrite s st).2 then installAdvance st s else installFault st s
      else if s.staging.verify then s.setInstall { st with back := true }
      else installAdvance st s := by
  unfold installTakes
  rw [hst]
  dsimp only
  split
  next h => exact absurd h (hw _)
  next h => exact absurd h (hw _)
  next => rfl

theorem installTakes_back (hst : s.install = some st) (hw : ∀ ds, st.step ≠ .epochs ds) (hv : s.staging.verify = true)
    (hb : st.back = false) : installTakes data s = { s with install := some { st with back := true } } := by
  rw [installTakes_writes hst hw, hb, hv]
  rfl

theorem installTakes_done (hst : s.install = some st) (hw : ∀ ds, st.step ≠ .epochs ds)
    (h : s.staging.verify = false ∧ st.back = false
      ∨ s.staging.verify = true ∧ st.back = true ∧ data = (installWrite s st).2) :
    installTakes data s = installAdvance st s := by
  rw [installTakes_writes hst hw]
  obtain ⟨hv, hb⟩ | ⟨-, hb, hd⟩ := h
  · rw [hb, hv]
    rfl
  · rw [hb, if_pos rfl, if_pos hd]

theorem installTakes_fails (hst : s.install = some st) (hw : ∀ ds, st.step ≠ .epochs ds) (hb : st.back = true)
    (hd : data ≠ (installWrite s st).2) : installTakes data s = installFault st s := by
  rw [installTakes_writes hst hw, hb, if_pos rfl, if_neg hd]

theorem installTakes_epoch {d e : Fin 4} {more : List (Fin 4)} (hst : s.install = some st) (hs : st.step = .epochs (d :: e :: more)) :
    installTakes data s =
      { s with install := some { st with step := .epochs (e :: more), epochs := st.epochs.set d data } } := by
  unfold installTakes
  rw [hst]
  dsimp only
  rw [hs]
  rfl

theorem installTakes_lastEpoch {d : Fin 4} (hst : s.install = some st) (hs : st.step = .epochs [d]) :
    installTakes data s = adopt { st with epochs := st.epochs.set d data, step := .epochs [] } s := by
  unfold installTakes
  rw [hst]
  dsimp only
  rw [hs]

theorem installAdvance_tags {i : Nat} (hs : st.step = .tags i) (hi : i + 1 < s.staging.geometry.slots) :
    installAdvance st s = { s with install := some { st with step := .tags (i + 1), back := false } } := by
  unfold installAdvance
  rw [hs]
  dsimp only
  rw [if_pos hi]
  rfl

theorem installAdvance_tagged {i : Nat} (hs : st.step = .tags i) (hi : s.staging.geometry.slots ≤ i + 1) :
    installAdvance st s = { s with install := some { st with step := .copy 0, back := false } } := by
  unfold installAdvance
  rw [hs]
  dsimp only
  rw [if_neg (Nat.not_lt.mpr hi)]
  rfl

theorem installAdvance_copy {k : Nat} (hs : st.step = .copy k) (hk : k < 127) :
    installAdvance st s = { s with install := some { st with step := .copy (k + 1), back := false } } := by
  unfold installAdvance
  rw [hs]
  exact if_pos (by omega)

theorem installAdvance_copied (hs : st.step = .copy 127) : installAdvance st s = installBeginsEpochs st s := by
  unfold installAdvance
  rw [hs]
  exact if_neg (by decide)

theorem installBeginsEpochs_adopts (h : s.staging.enabledDomains = []) : installBeginsEpochs st s = adopt st s := by
  unfold installBeginsEpochs
  rw [h]

theorem installBeginsEpochs_reads {d : Fin 4} {rest : List (Fin 4)} (h : s.staging.enabledDomains = d :: rest) :
    installBeginsEpochs st s = { s with install := some { st with step := .epochs (d :: rest), back := false } } := by
  unfold installBeginsEpochs
  rw [h]
  rfl

/-- A word that the manual counts as done is done to the install stream. -/
theorem installWordDone_of {w : Word} (hw : (installWrite s st).2 = w)
    (h : s.staging.verify = false ∧ st.back = false ∨ s.staging.verify = true ∧ st.back = true ∧ data = w) :
    installWordDone s st data = true := by
  unfold installWordDone
  obtain ⟨hv, hb⟩ | ⟨-, hb, rfl⟩ := h
  · rw [hb, hv]
    rfl
  · rw [hb, if_pos rfl, hw]
    exact decide_eq_true rfl

end Takes

/-! ### The completion commands of the install (log 6) -/

section Commands

variable {s : State} {f : Option Word} {a : Access} {st : InstallStream}

theorem exec_installWhen {c : Instr} {p : State → Word → Bool} (h : s.InProgress .install a) (hm : s.mode = .installing)
    (hc : exec c s = answer (completeWhen (fun a => a.liveFor .install && p s (accessData f s.memory a)) f) s)
    (hp : p s (accessData f s.memory a) = true) :
    exec c s = .next (settleStep true (installTakes (accessData f s.memory a) (s.completed f a))) := by
  rw [hc, answer_powered h.1, completeWhen_some h.2.1 (by rw [State.InProgress.liveFor h, hp]; rfl),
    completeAccess_inProgress h (by rw [hm]; exact Mode.noConfusion)]
  rfl

theorem exec_install (h : s.InProgress .install a) (hm : s.mode = .installing) :
    exec (.memoryAccessComplete f) s = .next (settleStep true (installTakes (accessData f s.memory a) (s.completed f a))) :=
  exec_memoryAccess_inProgress h Claimant.noConfusion (by rw [hm]; exact Mode.noConfusion) f

theorem exec_installTagsComplete {i : Nat} (h : s.InProgress .install a) (hm : s.mode = .installing) (hst : s.install = some st)
    (hs : st.step = .tags i) (hi : s.staging.geometry.slots ≤ i + 1)
    (hdone : installWordDone s st (accessData f s.memory a) = true) :
    exec (.installTagsComplete f) s = .next (settleStep true (installTakes (accessData f s.memory a) (s.completed f a))) :=
  exec_installWhen (p := installTagsEnd) h hm rfl (by
    unfold installTagsEnd
    rw [hst]
    dsimp only
    rw [hs]
    dsimp only
    rw [decide_eq_true hi, hdone]
    rfl)

theorem exec_installCopyComplete (h : s.InProgress .install a) (hm : s.mode = .installing) (hst : s.install = some st)
    (hs : st.step = .copy 127) (hdone : installWordDone s st (accessData f s.memory a) = true) :
    exec (.installCopyComplete f) s = .next (settleStep true (installTakes (accessData f s.memory a) (s.completed f a))) :=
  exec_installWhen (p := installCopyEnd) h hm rfl (by
    unfold installCopyEnd
    rw [hst]
    dsimp only
    rw [hs]
    dsimp only
    rw [hdone]
    rfl)

theorem exec_installEpochsComplete {d : Fin 4} (h : s.InProgress .install a) (hm : s.mode = .installing)
    (hst : s.install = some st) (hs : st.step = .epochs [d]) :
    exec (.installEpochsComplete f) s = .next (settleStep true (installTakes (accessData f s.memory a) (s.completed f a))) :=
  exec_installWhen (p := fun s _ => installEpochsEnd s) h hm rfl (by
    unfold installEpochsEnd
    rw [hst]
    dsimp only
    rw [hs]
    rfl)

end Commands

/-! ### The warm restart of a failed install (R164) -/

/-- With no access in progress and RESET# released the warm restart begins LOAD at once (R105, R164). -/
theorem settleStep_installFault {s : State} {st : InstallStream} (ha : s.memPort.access = none) (hr : s.resetAsserted = false)
    (hw : s.NoCycleWaits) :
    settleStep true (installFault st s) = (enterStarting .warm (s.installFailed st)).loading := by
  rw [installFault_eq]
  exact settleStep_loading true ((loadReady_iff _).mpr ⟨rfl, rfl, rfl, hr, stoppedAccess_none ha⟩)
    (enterStarting_standing (s := s.installFailed st) ha) (stoppedPort_noCycleWaits (s := s.installFailed st) hw)

/-- Settles O60: each step's words, the adoption, and the two faults. -/
theorem installStepsLeadToTheAdoption : Obligations.InstallStepsLeadToTheAdoption := by
  intro s f a st tag hin hm hw hst hpend hmode
  dsimp only
  have hl : ∀ {i : Option InstallStream}, ({ s.completed f a with install := i } : State).loadReady = false :=
    loadReady_of_mode _ (by rw [show (s.completed f a).mode = .installing from hm]; exact Mode.noConfusion)
  have goesTo : ∀ {c : Instr} {st' : InstallStream},
      exec c s = .next (settleStep true (installTakes (accessData f s.memory a) (s.completed f a))) →
      installTakes (accessData f s.memory a) (s.completed f a) = { s.completed f a with install := some st' } →
      ∃ t, exec c s = .next t ∧ Granted { s.completed f a with install := some st' } t := by
    intro c st' hexec htakes
    rw [htakes] at hexec
    exact ⟨_, hexec, settleStep_granted true _ hl hw⟩
  have adopts : ∀ {c : Instr} {st' : InstallStream},
      exec c s = .next (settleStep true (installTakes (accessData f s.memory a) (s.completed f a))) →
      installTakes (accessData f s.memory a) (s.completed f a) = adopt st' (s.completed f a) →
      st'.returnMode = st.returnMode → ∃ t, exec c s = .next t ∧ ((s.completed f a).adopted st').Released t := by
    intro c st' hexec htakes hreturn
    rw [htakes, adopt_eq] at hexec
    refine exec_released hexec ?_ hw
    rw [show ((s.completed f a).adopted st').mode = st.returnMode from hreturn]
    exact hmode.imp id .inl
  have hlink : ∀ r, (s.completed f a).link.installAnswered r =
      { s.link with pendingOp := .none, result := { tag := tag, code := 0x14, result := r, data := [] } } := by
    intro r
    unfold Link.installAnswered
    rw [show (s.completed f a).link.pendingOp = .install tag from hpend]
    rfl
  have fails : ∀ {detail : InstallDetail} {addr : Addr},
      installTakes (accessData f s.memory a) (s.completed f a) = installFault st (s.completed f a) →
      st.step.faultDetail = detail → (installWrite (s.completed f a) st).1 = addr →
      s.resetAsserted = false → s.port.state = .vacant ∨ s.port.state = .held ∨ s.port.state = .closing →
      ∃ t, exec (.memoryAccessComplete f) s = .next t
        ∧ t.mode = .starting ∧ t.recovery.startKind = .warm ∧ t.recovery.phase = .load ∧ t.recovery.pos = .copies []
        ∧ t.install = none ∧ t.staging = s.staging ∧ t.memory = (s.completed f a).memory ∧ t.port = s.port
        ∧ t.recovery.restoredDomains = s.recovery.restoredDomains ∧ (∀ d, t.dom d = .discarded) ∧ t.pool = []
        ∧ t.events = (record (.installFailed detail) (record (.mediaFault .install none addr) s)).events
        ∧ t.link = { s.link with
            pendingOp := .none, result := { tag := tag, code := 0x14, result := .media, data := [] } } := by
    rintro detail addr htakes rfl rfl hreset hport
    have hexec := exec_install (f := f) hin hm
    rw [htakes, settleStep_installFault (s := s.completed f a) rfl hreset hw] at hexec
    have hstays : stoppedPort ((s.completed f a).installFailed st) = s.port :=
      (stoppedPort_settled ((s.completed f a).installFailed st)).apart hport
    refine ⟨_, hexec, rfl, rfl, rfl, rfl, rfl, rfl, rfl, hstays, rfl, State.dom_replicate_discarded rfl, rfl, ?_, hlink _⟩
    change ((s.completed f a).installFailed st).events = _
    simp only [State.installFailed, record_events, record_mask]
    rfl
  refine ⟨fun hv hb haw hstep => ?_, fun i hstep hdone => ?_, fun k hstep hdone => ?_,
    fun d rest hstep har => ⟨fun e more hrest => ?_, fun hrest => ?_⟩, fun i hstep hfails => ?_, fun k hstep hfails => ?_⟩
  · exact goesTo (exec_install hin hm) (installTakes_back (s := s.completed f a) hst hstep hv hb)
  · have hword : (installWrite s st).2 = 0 := by rw [installWrite, hstep]
    have hadvance := installTakes_done (s := s.completed f a) (data := accessData f s.memory a) hst
      (by rw [hstep]; exact fun _ => InstallStep.noConfusion) (hword.symm ▸ wordDone_data hdone)
    exact ⟨fun hi => goesTo (exec_install hin hm) (hadvance.trans (installAdvance_tags hstep hi)), fun hi => goesTo
      (exec_installTagsComplete hin hm hst hstep hi (installWordDone_of hword (wordDone_data hdone)))
      (hadvance.trans (installAdvance_tagged hstep hi))⟩
  · have hword : (installWrite s st).2 = (copyWords st.sequence s.staging).getD k 0 := by rw [installWrite, hstep]
    have hadvance := installTakes_done (s := s.completed f a) (data := accessData f s.memory a) hst
      (by rw [hstep]; exact fun _ => InstallStep.noConfusion) (hword.symm ▸ wordDone_data hdone)
    refine ⟨fun hk => goesTo (exec_install hin hm) (hadvance.trans (installAdvance_copy hstep hk)), fun hk d rest hd => ?_,
      fun hk hd => ?_⟩
    all_goals
      subst hk
      have hexec := exec_installCopyComplete (f := f) hin hm hst hstep (installWordDone_of hword (wordDone_data hdone))
      rw [installAdvance_copied hstep] at hadvance
    · exact goesTo hexec (hadvance.trans (installBeginsEpochs_reads (s := s.completed f a) hd))
    · obtain ⟨t, ht, hreleased⟩ := adopts hexec (hadvance.trans (installBeginsEpochs_adopts (s := s.completed f a) hd)) rfl
      refine ⟨t, ht, ?_⟩
      simp only [State.adopted, hlink, record_events] at hreleased ⊢
      exact hreleased
  · subst hrest
    rw [← accessData_of_read har]
    exact goesTo (exec_install hin hm) (installTakes_epoch (s := s.completed f a) hst hstep)
  · subst hrest
    rw [← accessData_of_read har]
    obtain ⟨t, ht, hreleased⟩ := adopts (exec_installEpochsComplete hin hm hst hstep)
      (installTakes_lastEpoch (s := s.completed f a) hst hstep) rfl
    refine ⟨t, ht, ?_⟩
    simp only [State.adopted, hlink, record_events] at hreleased ⊢
    exact hreleased
  · obtain ⟨-, hb, hne⟩ := wordFails_data hfails
    have hwrite : installWrite s st = (slotWord s.logStart s.staging.geometry.stride i 0, 0) := by rw [installWrite, hstep]
    refine fails (installTakes_fails (s := s.completed f a) hst (by rw [hstep]; exact fun _ => InstallStep.noConfusion) hb
      (fun he => hne (he.trans (congrArg Prod.snd hwrite)))) (by rw [hstep]; rfl) (congrArg Prod.fst hwrite)
  · obtain ⟨-, hb, hne⟩ := wordFails_data hfails
    have hwrite : installWrite s st = (copyAddr128 s.logStart st.target k, (copyWords st.sequence s.staging).getD k 0) := by
      rw [installWrite, hstep]
    refine fails (installTakes_fails (s := s.completed f a) hst (by rw [hstep]; exact fun _ => InstallStep.noConfusion) hb
      (fun he => hne (he.trans (congrArg Prod.snd hwrite)))) (by rw [hstep]; rfl) ((congrArg Prod.fst hwrite).trans ?_)
    unfold copyAddr128
    cases st.target with
    | a => rfl
    | b => exact congrArg (fun n => BitVec.ofNat 19 (s.logStart + n)) (Nat.add_comm 128 k)

end Sys2Proof.Machine
end

section
/-! One domain's record and the slots that hold its records (R18, R25, R33, R51, R85, R86): what of `State.WorkFits` and
`State.CollectionsAgree` speaks of that domain alone, and that each step of an update, a commit and a rollback keeps it. -/

namespace Sys2Proof.Machine

/-- A domain's record `r` fits to its slots, the copy stream's slot and the quota: `v` gives the state of a slot that holds a record
of the domain. -/
structure DomainFits (v : Nat → Option SlotState) (copy : Option Nat) (quota : Nat) (r : Runtime) : Prop where
  active : ∀ i, v i = some .active → (r.state = .opened ∨ r.state = .committing) ∧ i ∈ r.members
  copying : ∀ i, v i = some .copying → copy = some i
    ∧ ((r.state = .opened ∧ i ∈ r.members) ∨ (r.state = .rolling ∧ i ∈ r.restoreList))
  restoring : ∀ i, v i = some .restoring → r.state = .rolling ∧ (i ∈ r.restoreList ∨ r.stream.bind (·.slot) = some i)
  stranded : ∀ i, v i = some .stranded → r.state = .failed
  members : r.members.Nodup ∧ r.members.length ≤ quota ∧ ∀ i ∈ r.members, v i = some .active ∨ v i = some .copying
  noMembers : r.state ≠ .opened → r.state ≠ .committing → r.members = []
  list : r.restoreList.Nodup ∧ ∀ i ∈ r.restoreList, v i = some .restoring ∨ v i = some .copying
  noList : r.state ≠ .rolling → r.restoreList = []
  stream : r.stream.isSome = true ↔ r.state = .rolling
  slot : ∀ st i, r.stream = some st → st.slot = some i → v i = some .restoring ∧ i ∉ r.restoreList
    ∧ ∀ j ∈ r.restoreList, v j = some .restoring
  committing : r.state = .committing → r.backlog = 0 ∧ ∀ i ∈ r.members, v i = some .active

/-- The slots with one slot's part changed. -/
def withSlot (v : Nat → Option SlotState) (i : Nat) (x : Option SlotState) : Nat → Option SlotState :=
  fun j => if j = i then x else v j

/-- The slots with every slot of one state in another. -/
def withMoved (v : Nat → Option SlotState) (old new : SlotState) : Nat → Option SlotState :=
  fun j => if v j = some old then some new else v j

section Domain

variable {v : Nat → Option SlotState} {copy : Option Nat} {quota : Nat} {r : Runtime}

/-- The timer, the epoch and, outside COMMITTING, the backlog do not matter. -/
theorem DomainFits.congr (h : DomainFits v copy quota r) {q : Runtime} (hs : q.state = r.state) (hm : q.members = r.members)
    (hl : q.restoreList = r.restoreList) (hstream : q.stream.map (·.slot) = r.stream.map (·.slot))
    (hb : r.state = .committing → q.backlog = 0) : DomainFits v copy quota q := by
  have hbind : q.stream.bind (·.slot) = r.stream.bind (·.slot) := by
    cases hq : q.stream <;> cases hr : r.stream <;> simp_all
  have hsome : q.stream.isSome = r.stream.isSome := by
    cases hq : q.stream <;> cases hr : r.stream <;> simp_all
  obtain ⟨h1, h2, h3, h4, h5, h6, h7, h8, h9, h10, h11⟩ := h
  refine ⟨?_, ?_, ?_, ?_, ?_, ?_, ?_, ?_, ?_, ?_, ?_⟩
  all_goals simp only [hs, hm, hl, hbind, hsome]
  any_goals assumption
  · intro st i hst hi
    cases hr : r.stream with
    | none => simp [hst, hr] at hstream
    | some st' =>
      refine h10 st' i hr ?_
      simp only [hst, hr, Option.map_some, Option.some.injEq] at hstream
      rw [← hstream]
      exact hi
  · intro hc
    exact ⟨hb hc, (h11 hc).2⟩

/-- With no slot COPYING the copy stream does not matter. -/
theorem DomainFits.of_noCopy (h : DomainFits v copy quota r) (hv : ∀ i, v i ≠ some .copying) (copy' : Option Nat) :
    DomainFits v copy' quota r :=
  { h with copying := fun i hi => absurd hi (hv i) }

/-- A record joins: a new member, COPYING (R23). -/
theorem DomainFits.joins (h : DomainFits v copy quota r) {i t : Nat} (hs : r.state = .idle ∨ r.state = .opened)
    (hi : v i = none) (hv : ∀ j, v j ≠ some .copying) (hq : r.members.length < quota) :
    DomainFits (withSlot v i (some .copying)) (some i) quota
      { r with state := .opened, timer := t, members := r.members ++ [i] } := by
  cases h
  constructor <;> grind [withSlot]

/-- The start of rollback: the ACTIVE slots, all members, are RESTORING (R33). -/
theorem DomainFits.rollsBack (h : DomainFits v copy quota r) {e : Word} {c : Cause} (hs : r.state = .idle ∨ r.state = .opened) :
    DomainFits (withMoved v .active .restoring) copy quota { r with
      state := .rolling, timer := 0, restoreList := r.members.reverse, members := []
      stream := some { epoch := e, cause := c, slot := none, pos := .read 0, back := false, restored := 0 } } := by
  cases h
  constructor <;> grind [withMoved]

/-- The end of rollback (R89). -/
theorem DomainFits.rolledBack (h : DomainFits v copy quota r) {st : RestoreStream} (hst : r.stream = some st) (hslot : st.slot = none)
    (hl : r.restoreList = []) (fence : Bool) :
    DomainFits v copy quota { r with state := if fence then .fenced else .idle, stream := none } := by
  cases h
  constructor <;> grind

/-- The restore stream takes the next slot (R86). -/
theorem DomainFits.takesNext (h : DomainFits v copy quota r) {st st' : RestoreStream} {i : Nat} {rest : List Nat}
    (hst : r.stream = some st) (hslot : st.slot = none) (hl : r.restoreList = i :: rest)
    (hv : ∀ j ∈ r.restoreList, v j ≠ some .copying) (hslot' : st'.slot = some i) :
    DomainFits v copy quota { r with restoreList := rest, stream := some st' } := by
  cases h
  constructor <;> grind

/-- The guard passes (R30). -/
theorem DomainFits.commits (h : DomainFits v copy quota r) (hs : r.state = .opened) (hb : r.backlog = 0)
    (hv : ∀ j, v j ≠ some .copying) : DomainFits v copy quota { r with state := .committing, timer := 0 } := by
  cases h
  constructor <;> grind

/-- The copy ends: the slot is ACTIVE in an OPEN domain, RESTORING in a ROLLING one (R25, R34, R90). -/
theorem DomainFits.copied (h : DomainFits v copy quota r) {i : Nat} {x : SlotState} (hi : v i = some .copying)
    (hs : r.state = .opened ∧ x = .active ∨ r.state = .rolling ∧ x = .restoring) :
    DomainFits (withSlot v i (some x)) none quota r := by
  cases h
  constructor <;> grind [withSlot]

/-- The copy's slot leaves an OPEN domain, which may be IDLE with no member left (R26, R96). -/
theorem DomainFits.uncopied (h : DomainFits v copy quota r) {i t : Nat} {x : UpdateState} (hs : r.state = .opened)
    (hi : v i = some .copying) (hx : x = .opened ∨ x = .idle ∧ r.members.erase i = []) :
    DomainFits (withSlot v i none) none quota { r with members := r.members.erase i, state := x, timer := t } := by
  cases h
  constructor <;> grind [withSlot]

/-- The copy's slot leaves the restore list of a ROLLING domain (R90). -/
theorem DomainFits.uncopiedRolling (h : DomainFits v copy quota r) {i : Nat} (hs : r.state = .rolling)
    (hi : v i = some .copying) :
    DomainFits (withSlot v i none) none quota { r with restoreList := r.restoreList.erase i } := by
  cases h
  constructor <;> grind [withSlot]

/-- The commit: the members are no longer the domain's (R30). -/
theorem DomainFits.committed (h : DomainFits v copy quota r) (hs : r.state = .committing) {e : Word} {b : Nat} :
    DomainFits (fun _ => none) copy quota { r with state := .idle, committed := e, backlog := b, members := [] } := by
  cases h
  constructor <;> grind

/-- A media fault of the epoch write strands the members (R42, R100). -/
theorem DomainFits.commitFails (h : DomainFits v copy quota r) (hs : r.state = .committing) :
    DomainFits (withMoved v .active .stranded) copy quota { r with state := .failed, members := [] } := by
  cases h
  constructor <;> grind [withMoved]

/-- The restore stream's slot leaves the domain (R88, R99). -/
theorem DomainFits.restored (h : DomainFits v copy quota r) {st st' : RestoreStream} {i : Nat} (hst : r.stream = some st)
    (hslot : st.slot = some i) (hslot' : st'.slot = none) :
    DomainFits (withSlot v i none) copy quota { r with stream := some st' } := by
  cases h
  constructor <;> grind [withSlot]

/-- A media fault at a record word strands the slot and the rest of the list (R42, R98). -/
theorem DomainFits.restoreFails (h : DomainFits v copy quota r) {st : RestoreStream} {i : Nat} (hst : r.stream = some st)
    (hslot : st.slot = some i) :
    DomainFits (withMoved v .restoring .stranded) copy quota { r with state := .failed, restoreList := [], stream := none } := by
  cases h
  constructor <;> grind [withMoved]

/-- RESUME (R149). -/
theorem DomainFits.resumed (h : DomainFits v copy quota r) (hs : r.state = .fenced) :
    DomainFits v copy quota { r with state := .idle } := by
  cases h
  constructor <;> grind

/-- A domain without members, restore stream and slots. -/
theorem DomainFits.of_none {copy : Option Nat} (hm : r.members = []) (hl : r.restoreList = []) (hst : r.stream = none)
    (hs : r.state ≠ .rolling) (hc : r.state ≠ .committing) : DomainFits (fun _ => none) copy quota r := by
  constructor <;> grind

/-- A FAILED domain whose slots are STRANDED (R42). -/
theorem DomainFits.of_stranded {copy : Option Nat} (hv : ∀ i x, v i = some x → x = .stranded ∧ r.state = .failed)
    (hm : r.members = []) (hl : r.restoreList = []) (hst : r.stream = none)
    (hs : r.state ≠ .rolling) (hc : r.state ≠ .committing) : DomainFits v copy quota r := by
  constructor <;> grind

end Domain

end Sys2Proof.Machine
end

section
/-! The invariant of the working state, taken apart (R18, R21, R51 to R56): the pool with its queues and index, each domain with its
slots, and the Host Port with what its write waits for. Together they are `State.CollectionsAgree` and `State.WorkFits`. -/

namespace Sys2Proof.Machine

/-! ### Slots -/

/-- What a domain has of a slot: the state of a slot that holds a record of the domain. -/
def State.owns (s : State) (d : Fin 4) (i : Nat) : Option SlotState :=
  if (s.slot i).state.holdsRecord = true ∧ (s.slot i).domain = d then some (s.slot i).state else none

theorem owns_eq_some_iff {s : State} {d : Fin 4} {i : Nat} {x : SlotState} :
    s.owns d i = some x ↔ x.holdsRecord = true ∧ (s.slot i).state = x ∧ (s.slot i).domain = d := by
  unfold State.owns
  constructor
  · intro h
    split at h
    next hh =>
      cases h
      exact ⟨hh.1, rfl, hh.2⟩
    next => cases h
  · rintro ⟨hx, rfl, rfl⟩
    exact if_pos ⟨hx, rfl⟩

theorem slot_of_le {s : State} {i : Nat} (h : s.pool.length ≤ i) : s.slot i = .badEntry := by
  unfold State.slot
  exact List.getD_eq_default _ _ h

theorem lt_of_notBad {s : State} {i : Nat} (h : (s.slot i).state ≠ .bad) : i < s.pool.length := by
  by_contra hlt
  exact h (by rw [slot_of_le (Nat.not_lt.mp hlt)]; rfl)

theorem slotIs_iff {s : State} {i : Nat} {x : SlotState} (hx : x ≠ .bad) : s.SlotIs i x ↔ (s.slot i).state = x :=
  ⟨fun h => h.2, fun h => ⟨lt_of_notBad (h ▸ hx), h⟩⟩

theorem lt_of_holds {s : State} {i : Nat} (h : (s.slot i).state.holdsRecord = true) : i < s.pool.length :=
  lt_of_notBad fun hb => by rw [hb] at h; cases h

theorem pool_eq_map (s : State) : s.pool = (List.range s.pool.length).map s.slot := by
  refine List.ext_getElem (by simp) fun i hi hi' => ?_
  simp [State.slot, List.getD_eq_getElem?_getD, hi]

/-- The entries of a pool that pass a test, counted by their slots. -/
theorem pool_filter_length (s : State) (p : PoolEntry → Bool) {l : List Nat} (hl : l.Nodup)
    (hmem : ∀ i, i ∈ l ↔ i < s.pool.length ∧ p (s.slot i) = true) : (s.pool.filter p).length = l.length := by
  rw [pool_eq_map s, List.filter_map, List.length_map]
  refine List.Perm.length_eq ((List.perm_ext_iff_of_nodup (List.nodup_range.filter _) hl).mpr fun i => ?_)
  rw [hmem, List.mem_filter, List.mem_range]
  rfl

/-! ### The three parts -/

/-- The queues, the backlogs, the Slot Index and the copy stream agree with the pool. -/
structure State.PoolFits (s : State) : Prop where
  free : s.freeQueue.Nodup ∧ ∀ i, i ∈ s.freeQueue ↔ (s.slot i).state = .free
  retire : s.retireQueue.Nodup ∧ ∀ i, i ∈ s.retireQueue ↔ (s.slot i).state = .retiring
  backlog : ∀ d, (s.dom d).backlog = (s.retireQueue.filter fun i => decide ((s.slot i).domain = d)).length
  indexSlots : (s.slotIndex.map (·.slot)).Nodup
  indexRecords : (s.slotIndex.map fun e => (e.region, e.record)).Nodup
  indexed : ∀ e ∈ s.slotIndex, (s.slot e.slot).state.holdsRecord = true ∧ (s.slot e.slot).region = e.region
    ∧ (s.slot e.slot).record = e.record
  covered : ∀ i, (s.slot i).state.holdsRecord = true → i ∈ s.slotIndex.map (·.slot)
  owned : ∀ i, (s.slot i).state.holdsRecord = true → (s.layout.regions[(s.slot i).region]).domain = (s.slot i).domain
  copy : ∀ c, s.copy = some c → (s.slot c.slot).state = .copying

/-- The working state apart from the Host Port fits together. -/
structure State.CoreFits (s : State) : Prop where
  pool : s.PoolFits
  domains : ∀ d, DomainFits (s.owns d) (s.copy.map (·.slot)) (s.cfg d).quota (s.dom d)
  commit : ∀ c, s.commit = some c → (s.dom c.domain).state = .committing
  alone : s.commit ≠ none → s.copy = none

/-- What the Port's write waits for is there. -/
def State.HeldFits (s : State) (h : Hit) : Prop :=
  (s.port.stage = .slot → (s.layout.regions[h.region]).domain = h.domain ∧ s.indexed h.region h.record = none
    ∧ s.slotComing = true ∧ ((s.dom h.domain).state = .idle
      ∨ ((s.dom h.domain).state = .opened ∧ (s.dom h.domain).members.length < (s.cfg h.domain).quota)))
  ∧ (s.port.stage = .copy → ∃ c, s.copy = some c ∧ (s.slot c.slot).domain = h.domain)
  ∧ (s.port.stage = .backlog → (s.dom h.domain).state = .opened)
  ∧ (s.port.stage = .commitStore → (s.dom h.domain).state = .committing)

/-- The Host Port fits to the streams that serve its write, and its write to what it waits for. -/
structure State.PortFits (s : State) : Prop where
  copy : s.copy ≠ none → s.port.state = .deciding ∧ s.port.stage = .copy
  commit : s.commit ≠ none → s.port.state = .deciding ∧ s.port.stage = .epochWrite
  held : ∀ h, s.journalHit = some h → s.HeldFits h

/-- What the modes add. -/
structure State.ModeFits (s : State) : Prop where
  port : s.mode ≠ .frozen → s.PortFits
  frozen : s.mode = .frozen → s.journalHit = none
  quiet : s.mode = .installing → s.quiet = true
  starting : s.mode = .starting → s.pool = [] ∧ s.commit = none ∧ s.journalHit = none ∧ (∀ d, s.dom d = .discarded)
    ∧ s.RecoveryFits

/-! ### They are the two invariants -/

theorem domainFits_of_workFits {s : State} (hc : s.CollectionsAgree) (h : s.WorkFits) (d : Fin 4) :
    DomainFits (s.owns d) (s.copy.map (·.slot)) (s.cfg d).quota (s.dom d) where
  active i hi := by
    obtain ⟨hx, hs, rfl⟩ := owns_eq_some_iff.mp hi
    exact h.active i (lt_of_holds (hs ▸ hx)) hs
  copying i hi := by
    obtain ⟨hx, hs, rfl⟩ := owns_eq_some_iff.mp hi
    exact h.copying i (lt_of_holds (hs ▸ hx)) hs
  restoring i hi := by
    obtain ⟨hx, hs, rfl⟩ := owns_eq_some_iff.mp hi
    exact h.restoring i (lt_of_holds (hs ▸ hx)) hs
  stranded i hi := by
    obtain ⟨hx, hs, rfl⟩ := owns_eq_some_iff.mp hi
    exact h.stranded i (lt_of_holds (hs ▸ hx)) hs
  members := ⟨(hc.members d).1, (hc.members d).2, fun i hi => by
    obtain ⟨hd, hs⟩ := (h.members d).1 i hi
    exact hs.imp (fun hs => owns_eq_some_iff.mpr ⟨rfl, hs.2, hd⟩) fun hs => owns_eq_some_iff.mpr ⟨rfl, hs.2, hd⟩⟩
  noMembers := (h.members d).2
  list := ⟨(h.lists d).1, fun i hi => by
    obtain ⟨hd, hs⟩ := (h.lists d).2.1 i hi
    exact hs.imp (fun hs => owns_eq_some_iff.mpr ⟨rfl, hs.2, hd⟩) fun hs => owns_eq_some_iff.mpr ⟨rfl, hs.2, hd⟩⟩
  noList := (h.lists d).2.2
  stream := (h.streams d).1
  slot st i hst hi := by
    obtain ⟨hd, hs, hno, hall⟩ := (h.streams d).2 st i hst hi
    exact ⟨owns_eq_some_iff.mpr ⟨rfl, hs.2, hd⟩, hno, fun j hj =>
      owns_eq_some_iff.mpr ⟨rfl, (hall j hj).2, ((h.lists d).2.1 j hj).1⟩⟩
  committing hs := ⟨(h.committing d hs).1, fun i hi =>
    owns_eq_some_iff.mpr ⟨rfl, ((h.committing d hs).2 i hi).2, ((h.members d).1 i hi).1⟩⟩

theorem poolFits_of_agree {s : State} (hc : s.CollectionsAgree) (hw : s.WorkFits) : s.PoolFits where
  free := by
    obtain ⟨hnodup, hfree, hall⟩ := hc.free
    refine ⟨hnodup, fun i => ⟨fun hi => (hfree i hi).2, fun hi => ?_⟩⟩
    have his := (slotIs_iff SlotState.noConfusion).mpr hi
    exact hall i his.1 his
  retire := by
    obtain ⟨hnodup, hretire, hall⟩ := hc.retire
    refine ⟨hnodup, fun i => ⟨fun hi => (hretire i hi).2, fun hi => ?_⟩⟩
    have his := (slotIs_iff SlotState.noConfusion).mpr hi
    exact hall i his.1 his
  backlog d := by
    obtain ⟨hnodup, hretire, hall⟩ := hc.retire
    rw [hc.backlog d]
    refine pool_filter_length s _ (hnodup.filter _) fun i => ?_
    rw [List.mem_filter, decide_eq_true_eq, decide_eq_true_eq]
    constructor
    · rintro ⟨hi, hd⟩
      exact ⟨(hretire i hi).1, (hretire i hi).2, hd⟩
    · rintro ⟨hi, hr, hd⟩
      exact ⟨hall i hi ⟨hi, hr⟩, hd⟩
  indexSlots := hc.index.1
  indexRecords := hc.index.2.1
  indexed e he := (hc.index.2.2.1 e he).2
  covered i hi := hc.index.2.2.2 i (lt_of_holds hi) hi
  owned i hi := hw.owned i (lt_of_holds hi) hi
  copy c hcopy := (hw.copy c hcopy).1.2

theorem coreFits_of_workFits {s : State} (hc : s.CollectionsAgree) (hw : s.WorkFits) : s.CoreFits where
  pool := poolFits_of_agree hc hw
  domains := domainFits_of_workFits hc hw
  commit c hcommit := (hw.commit c hcommit).1
  alone hcommit := by
    obtain ⟨c, hcommit⟩ := Option.ne_none_iff_exists'.mp hcommit
    exact (hw.commit c hcommit).2.1

theorem modeFits_of_workFits {s : State} (hw : s.WorkFits) : s.ModeFits where
  port hm := {
    copy := fun hcopy => by
      obtain ⟨c, hcopy⟩ := Option.ne_none_iff_exists'.mp hcopy
      exact (hw.copy c hcopy).2 hm
    commit := fun hcommit => by
      obtain ⟨c, hcommit⟩ := Option.ne_none_iff_exists'.mp hcommit
      exact (hw.commit c hcommit).2.2 hm
    held := hw.held }
  frozen := hw.frozen
  quiet := hw.quiet
  starting := hw.starting

theorem collectionsAgree_of_coreFits {s : State} (h : s.CoreFits) : s.CollectionsAgree where
  free := ⟨h.pool.free.1, fun i hi => (slotIs_iff SlotState.noConfusion).mpr ((h.pool.free.2 i).mp hi),
    fun i _ hi => (h.pool.free.2 i).mpr hi.2⟩
  retire := ⟨h.pool.retire.1, fun i hi => (slotIs_iff SlotState.noConfusion).mpr ((h.pool.retire.2 i).mp hi),
    fun i _ hi => (h.pool.retire.2 i).mpr hi.2⟩
  backlog d := by
    rw [h.pool.backlog d]
    refine (pool_filter_length s _ (h.pool.retire.1.filter _) fun i => ?_).symm
    rw [List.mem_filter, decide_eq_true_eq, decide_eq_true_eq, h.pool.retire.2 i]
    exact ⟨fun ⟨hs, hd⟩ => ⟨lt_of_notBad (by rw [hs]; exact SlotState.noConfusion), hs, hd⟩, fun ⟨_, hs, hd⟩ => ⟨hs, hd⟩⟩
  index := ⟨h.pool.indexSlots, h.pool.indexRecords, fun e he => ⟨lt_of_holds (h.pool.indexed e he).1, h.pool.indexed e he⟩,
    fun i _ hi => h.pool.covered i hi⟩
  members d := ⟨(h.domains d).members.1, (h.domains d).members.2.1⟩

/-- A slot that a domain has, in the words of `State.WorkFits`. -/
theorem slotIs_of_owns {s : State} {d : Fin 4} {i : Nat} {x : SlotState} (h : s.owns d i = some x) :
    (s.slot i).domain = d ∧ s.SlotIs i x := by
  obtain ⟨hx, hs, hd⟩ := owns_eq_some_iff.mp h
  exact ⟨hd, (slotIs_iff (fun hb => by rw [hb] at hx; cases hx)).mpr hs⟩

theorem workFits_of_fits {s : State} (h : s.CoreFits) (hm : s.ModeFits) : s.WorkFits where
  active i _ hs := (h.domains _).active i (owns_eq_some_iff.mpr ⟨rfl, hs, rfl⟩)
  copying i _ hs := (h.domains _).copying i (owns_eq_some_iff.mpr ⟨rfl, hs, rfl⟩)
  restoring i _ hs := (h.domains _).restoring i (owns_eq_some_iff.mpr ⟨rfl, hs, rfl⟩)
  stranded i _ hs := (h.domains _).stranded i (owns_eq_some_iff.mpr ⟨rfl, hs, rfl⟩)
  owned i _ hi := h.pool.owned i hi
  members d := ⟨fun i hi => by
    obtain hv | hv := (h.domains d).members.2.2 i hi
    · exact ⟨(slotIs_of_owns hv).1, .inl (slotIs_of_owns hv).2⟩
    · exact ⟨(slotIs_of_owns hv).1, .inr (slotIs_of_owns hv).2⟩, (h.domains d).noMembers⟩
  lists d := ⟨(h.domains d).list.1, fun i hi => by
    obtain hv | hv := (h.domains d).list.2 i hi
    · exact ⟨(slotIs_of_owns hv).1, .inl (slotIs_of_owns hv).2⟩
    · exact ⟨(slotIs_of_owns hv).1, .inr (slotIs_of_owns hv).2⟩, (h.domains d).noList⟩
  streams d := ⟨(h.domains d).stream, fun st i hst hi => by
    obtain ⟨hv, hno, hall⟩ := (h.domains d).slot st i hst hi
    exact ⟨(slotIs_of_owns hv).1, (slotIs_of_owns hv).2, hno, fun j hj => (slotIs_of_owns (hall j hj)).2⟩⟩
  committing d hs := ⟨((h.domains d).committing hs).1, fun i hi => (slotIs_of_owns (((h.domains d).committing hs).2 i hi)).2⟩
  copy c hc := ⟨(slotIs_iff SlotState.noConfusion).mpr (h.pool.copy c hc),
    fun hf => (hm.port hf).copy (by rw [hc]; exact Option.some_ne_none c)⟩
  commit c hc := ⟨h.commit c hc, h.alone (by rw [hc]; exact Option.some_ne_none c),
    fun hf => (hm.port hf).commit (by rw [hc]; exact Option.some_ne_none c)⟩
  held hit hh := by
    by_cases hf : s.mode = .frozen
    · rw [hm.frozen hf] at hh
      cases hh
    · exact (hm.port hf).held hit hh
  frozen := hm.frozen
  quiet := hm.quiet
  starting := hm.starting

end Sys2Proof.Machine
end

section
/-! How the working state keeps fitting together when one slot, one domain's slots or one domain's record change. -/

namespace Sys2Proof.Machine

/-! ### What the fits depend on -/

theorem State.CoreFits.congr {s t : State} (h : s.CoreFits) (hpool : t.pool = s.pool) (hdom : t.domains = s.domains)
    (hfree : t.freeQueue = s.freeQueue) (hretire : t.retireQueue = s.retireQueue) (hindex : t.slotIndex = s.slotIndex)
    (hcopy : t.copy = s.copy) (hcommit : t.commit = s.commit) (hlayout : t.layout = s.layout) : t.CoreFits := by
  have hslot : t.slot = s.slot := by funext i; rw [State.slot, State.slot, hpool]
  have hd : t.dom = s.dom := by funext d; rw [State.dom, State.dom, hdom]
  have howns : t.owns = s.owns := by funext d i; rw [State.owns, State.owns, hslot]
  have hcfg : t.cfg = s.cfg := by funext d; rw [State.cfg, State.cfg, hlayout]
  obtain ⟨⟨h1, h2, h3, h4, h5, h6, h7, h8, h9⟩, hdomains, hc, ha⟩ := h
  refine ⟨⟨?_, ?_, ?_, ?_, ?_, ?_, ?_, ?_, ?_⟩, ?_, ?_, ?_⟩
  all_goals simp only [hslot, hd, howns, hcfg, hfree, hretire, hindex, hcopy, hcommit, hlayout]
  all_goals assumption

/-- One domain's record, its slots, the copy and the commit change; the other domains keep theirs. -/
theorem State.CoreFits.of_domain {s t : State} {d : Fin 4} (h : s.CoreFits) (hpool : t.PoolFits) (hlayout : t.layout = s.layout)
    (hothers : ∀ e, e ≠ d → t.owns e = s.owns e ∧ t.dom e = s.dom e)
    (hfits : DomainFits (t.owns d) (t.copy.map (·.slot)) (s.cfg d).quota (t.dom d))
    (hcopy : t.copy.map (·.slot) = s.copy.map (·.slot) ∨ ∀ e, e ≠ d → ∀ j, s.owns e j ≠ some .copying)
    (hcommit : ∀ c, t.commit = some c → s.commit = some c ∧ c.domain ≠ d ∨ c.domain = d ∧ (t.dom d).state = .committing)
    (halone : t.commit ≠ none → t.copy = none) : t.CoreFits where
  pool := hpool
  domains e := by
    have hcfg : t.cfg e = s.cfg e := by rw [State.cfg, State.cfg, hlayout]
    rw [hcfg]
    by_cases he : e = d
    · subst he
      exact hfits
    · obtain ⟨howns, hdom⟩ := hothers e he
      rw [howns, hdom]
      obtain hc | hc := hcopy
      · rw [hc]
        exact h.domains e
      · exact (h.domains e).of_noCopy (hc e he) _
  commit c hc := by
    obtain ⟨hs, hne⟩ | ⟨rfl, hs⟩ := hcommit c hc
    · rw [(hothers c.domain hne).2]
      exact h.commit c hs
    · exact hs
  alone := halone

/-! ### Slots that go on holding their records -/

/-- The pool with its queues and index, when slots that hold records change among the states that do. -/
theorem State.PoolFits.of_held {s t : State} (h : s.PoolFits)
    (hslot : ∀ j, (t.slot j).domain = (s.slot j).domain ∧ (t.slot j).region = (s.slot j).region
      ∧ (t.slot j).record = (s.slot j).record ∧ ((t.slot j).state = (s.slot j).state
        ∨ (s.slot j).state.holdsRecord = true ∧ (t.slot j).state.holdsRecord = true))
    (hfree : t.freeQueue = s.freeQueue) (hretire : t.retireQueue = s.retireQueue) (hindex : t.slotIndex = s.slotIndex)
    (hlayout : t.layout = s.layout) (hbacklog : ∀ d, (t.dom d).backlog = (s.dom d).backlog)
    (hcopy : ∀ c, t.copy = some c → (t.slot c.slot).state = .copying) : t.PoolFits := by
  have hholds : ∀ j, (t.slot j).state.holdsRecord = true ↔ (s.slot j).state.holdsRecord = true := by
    intro j
    obtain ⟨-, -, -, hs | hs⟩ := hslot j
    · rw [hs]
    · exact ⟨fun _ => hs.1, fun _ => hs.2⟩
  have hstate : ∀ j x, x.holdsRecord = false → ((t.slot j).state = x ↔ (s.slot j).state = x) := by
    intro j x hx
    obtain ⟨-, -, -, hs | ⟨hs, ht⟩⟩ := hslot j
    · rw [hs]
    · constructor
      · intro he
        rw [he, hx] at ht
        cases ht
      · intro he
        rw [he, hx] at hs
        cases hs
  exact {
    free := ⟨hfree ▸ h.free.1, fun i => by rw [hfree, hstate i _ rfl]; exact h.free.2 i⟩
    retire := ⟨hretire ▸ h.retire.1, fun i => by rw [hretire, hstate i _ rfl]; exact h.retire.2 i⟩
    backlog := fun d => by
      rw [hbacklog, h.backlog d, hretire]
      exact congrArg List.length (List.filter_congr fun i _ => by rw [(hslot i).1])
    indexSlots := hindex ▸ h.indexSlots
    indexRecords := hindex ▸ h.indexRecords
    indexed := fun e he => by
      obtain ⟨hs, hr, hrec⟩ := h.indexed e (hindex ▸ he)
      exact ⟨(hholds _).mpr hs, (hslot _).2.1.trans hr, (hslot _).2.2.1.trans hrec⟩
    covered := fun i hi => hindex ▸ h.covered i ((hholds i).mp hi)
    owned := fun i hi => by
      simp only [hlayout, (hslot i).1, (hslot i).2.1]
      exact h.owned i ((hholds i).mp hi)
    copy := hcopy }

/-! ### One slot given another entry -/

/-- One slot has another entry. -/
def State.Changed (s t : State) (i : Nat) (e : PoolEntry) : Prop := ∀ j, t.slot j = if j = i then e else s.slot j

theorem changed_of_set {s t : State} {i : Nat} {e : PoolEntry} (hi : (s.slot i).state ≠ .bad) (ht : t.pool = s.pool.set i e) :
    s.Changed t i e := by
  intro j
  have hset := slot_set s i j e
  rw [if_congr (and_iff_left (lt_of_notBad hi)) rfl rfl, if_congr eq_comm rfl rfl] at hset
  rw [← hset]
  exact congrArg (fun p : List PoolEntry => p.getD j .badEntry) ht

theorem owns_changed {s t : State} {i : Nat} {e : PoolEntry} (h : s.Changed t i e) (d : Fin 4) :
    t.owns d = withSlot (s.owns d) i (if e.state.holdsRecord = true ∧ e.domain = d then some e.state else none) := by
  funext j
  unfold State.owns withSlot
  rw [h j]
  by_cases hj : j = i
  · rw [if_pos hj, if_pos hj]
  · rw [if_neg hj, if_neg hj]

theorem withSlot_same {v : Nat → Option SlotState} {i : Nat} {x : Option SlotState} (h : v i = x) : withSlot v i x = v := by
  funext j
  unfold withSlot
  split
  next hj => rw [hj, h]
  next => rfl

theorem owns_eq_none {s : State} {d : Fin 4} {i : Nat} (h : (s.slot i).state.holdsRecord = true → (s.slot i).domain ≠ d) :
    s.owns d i = none := if_neg fun hh => h hh.1 hh.2

/-- A domain that neither had the slot nor has it now has what it had. -/
theorem owns_changed_other {s t : State} {i : Nat} {e : PoolEntry} {d : Fin 4} (h : s.Changed t i e)
    (hs : (s.slot i).state.holdsRecord = true → (s.slot i).domain ≠ d) (he : e.state.holdsRecord = true → e.domain ≠ d) :
    t.owns d = s.owns d := by
  rw [owns_changed h, if_neg fun hh => he hh.1 hh.2, withSlot_same (owns_eq_none hs)]

/-! ### Slots of one state moved to another -/

/-- The slots of a list that were in one state are in another. -/
def State.Moved (s t : State) (old new : SlotState) (l : List Nat) : Prop :=
  ∀ j, t.slot j = if j ∈ l ∧ (s.slot j).state = old then { s.slot j with state := new } else s.slot j

theorem moved_of_movedPool {s t : State} {old new : SlotState} {l : List Nat} (hb : old ≠ .bad)
    (ht : t.pool = movedPool old new l s.pool) : s.Moved t old new l := by
  intro j
  unfold State.slot
  rw [ht]
  simp only [movedPool, List.getD_eq_getElem?_getD, List.getElem?_mapIdx]
  cases s.pool[j]? with
  | none =>
    simp only [Option.map_none, Option.getD_none]
    exact (if_neg fun hh => hb hh.2.symm).symm
  | some e => rfl

theorem owns_moved {s t : State} {old new : SlotState} {l : List Nat} {d : Fin 4} (h : s.Moved t old new l)
    (ho : old.holdsRecord = true) (hn : new.holdsRecord = true) (hl : ∀ j, s.owns d j = some old → j ∈ l) :
    t.owns d = withMoved (s.owns d) old new := by
  funext j
  unfold withMoved
  by_cases hj : s.owns d j = some old
  · obtain ⟨-, hs, hd⟩ := owns_eq_some_iff.mp hj
    rw [if_pos hj, owns_eq_some_iff, h j, if_pos ⟨hl j hj, hs⟩]
    exact ⟨hn, rfl, hd⟩
  · rw [if_neg hj]
    unfold State.owns
    rw [h j]
    split
    next hh =>
      have hd : (s.slot j).domain ≠ d := fun hd => hj (owns_eq_some_iff.mpr ⟨ho, hh.2, hd⟩)
      rw [if_neg fun hb => hd hb.2, if_neg fun hb => hd hb.2]
    next => rfl

theorem owns_moved_other {s t : State} {old new : SlotState} {l : List Nat} {d : Fin 4} (h : s.Moved t old new l)
    (hl : ∀ j ∈ l, (s.slot j).domain ≠ d) : t.owns d = s.owns d := by
  funext j
  unfold State.owns
  rw [h j]
  split
  next hh =>
    have hd := hl j hh.1
    rw [if_neg fun hb => hd hb.2, if_neg fun hb => hd hb.2]
  next => rfl

theorem State.PoolFits.of_moved {s t : State} {old new : SlotState} {l : List Nat} (h : s.PoolFits) (hm : s.Moved t old new l)
    (ho : old.holdsRecord = true) (hn : new.holdsRecord = true) (hc : old ≠ .copying)
    (hfree : t.freeQueue = s.freeQueue) (hretire : t.retireQueue = s.retireQueue) (hindex : t.slotIndex = s.slotIndex)
    (hlayout : t.layout = s.layout) (hbacklog : ∀ d, (t.dom d).backlog = (s.dom d).backlog)
    (hcopy : ∀ c, t.copy = some c → s.copy = some c) : t.PoolFits := by
  refine h.of_held (fun j => ?_) hfree hretire hindex hlayout hbacklog fun c hcp => ?_
  · rw [hm j]
    split
    next hh => exact ⟨rfl, rfl, rfl, .inr ⟨hh.2 ▸ ho, hn⟩⟩
    next => exact ⟨rfl, rfl, rfl, .inl rfl⟩
  · have hcs := h.copy c (hcopy c hcp)
    rw [hm, if_neg fun hh => hc (hh.2.symm.trans hcs)]
    exact hcs

end Sys2Proof.Machine
end

section
/-! Rollback keeps the working state fitting together: its start, its restore stream, its end (R33, R86, R88, R89). -/

namespace Sys2Proof.Machine

theorem State.CoreFits.member {s : State} (h : s.CoreFits) {d : Fin 4} {i : Nat} (hi : i ∈ (s.dom d).members) :
    (s.slot i).domain = d := by
  obtain hv | hv := (h.domains d).members.2.2 i hi
  · exact (owns_eq_some_iff.mp hv).2.2
  · exact (owns_eq_some_iff.mp hv).2.2

theorem State.CoreFits.listed {s : State} (h : s.CoreFits) {d : Fin 4} {i : Nat} (hi : i ∈ (s.dom d).restoreList) :
    (s.slot i).domain = d := by
  obtain hv | hv := (h.domains d).list.2 i hi
  · exact (owns_eq_some_iff.mp hv).2.2
  · exact (owns_eq_some_iff.mp hv).2.2

/-- One domain's record changes and nothing else of the working state. -/
theorem setDom_coreFits {s : State} (h : s.CoreFits) {d : Fin 4} {r : Runtime} (hb : r.backlog = (s.dom d).backlog)
    (hr : DomainFits (s.owns d) (s.copy.map (·.slot)) (s.cfg d).quota r)
    (hc : (s.dom d).state = .committing → r.state = .committing) : (s.setDom d r).CoreFits := by
  have hdom : ∀ e, (s.setDom d r).dom e = if d = e then r else s.dom e := fun e => s.dom_setDom d e r
  refine h.of_domain (d := d) ?_ rfl (fun e he => ⟨rfl, ?_⟩) ?_ (.inl rfl) (fun c hcommit => ?_) h.alone
  · refine h.pool.of_held (fun j => ⟨rfl, rfl, rfl, .inl rfl⟩) rfl rfl rfl rfl (fun e => ?_) h.pool.copy
    rw [hdom]
    split
    next he => rw [hb, he]
    next => rfl
  · rw [hdom, if_neg (Ne.symm he)]
  · rw [hdom, if_pos rfl]
    exact hr
  · by_cases he : c.domain = d
    · refine .inr ⟨he, ?_⟩
      rw [hdom, if_pos rfl]
      exact hc (he ▸ h.commit c hcommit)
    · exact .inl ⟨hcommit, he⟩

theorem record_coreFits {s : State} (h : s.CoreFits) (e : Event) : (record e s).CoreFits := by
  rw [record_eq]
  exact h.congr rfl rfl rfl rfl rfl rfl rfl rfl

theorem startRollback_coreFits {s : State} (h : s.CoreFits) {d : Fin 4} {c : Cause}
    (hs : (s.dom d).state = .idle ∨ (s.dom d).state = .opened) : (startRollback d c s).CoreFits := by
  have hm : s.Moved (startRollback d c s) .active .restoring (s.dom d).members :=
    moved_of_movedPool SlotState.noConfusion (by rw [startRollback_only])
  have hdom := fun e => startRollback_dom s d e c
  have howns : (startRollback d c s).owns d = withMoved (s.owns d) .active .restoring :=
    owns_moved hm rfl rfl fun j hj => ((h.domains d).active j hj).2
  have honly := startRollback_only s d c
  refine h.of_domain (d := d) ?_ (by rw [honly]) (fun e he => ⟨owns_moved_other hm fun j hj => ?_, ?_⟩) ?_ (.inl (by rw [honly]))
    (fun k hk => ?_) (by rw [honly]; exact h.alone)
  · refine h.pool.of_moved hm rfl rfl SlotState.noConfusion (by rw [honly]) (by rw [honly]) (by rw [honly]) (by rw [honly])
      (fun e => ?_) (by rw [honly]; exact fun _ => id)
    rw [hdom]
    split
    next he => rw [he]
    next => rfl
  · rw [h.member hj]
    exact Ne.symm he
  · rw [hdom, if_neg (Ne.symm he)]
  · rw [howns, hdom, if_pos rfl, show (startRollback d c s).copy = s.copy by rw [honly]]
    exact (h.domains d).rollsBack hs
  · rw [honly] at hk
    refine .inl ⟨hk, fun he => ?_⟩
    have hcommitting := h.commit k hk
    rw [he] at hcommitting
    obtain hs | hs := hs <;> rw [hs] at hcommitting <;> cases hcommitting

theorem beginRestore_coreFits {s : State} (h : s.CoreFits) (d : Fin 4) : (beginRestore d s).CoreFits := by
  unfold beginRestore
  dsimp only
  split
  next => exact h
  next st hst =>
    have hrolling : (s.dom d).state = .rolling := (h.domains d).stream.mp (by rw [hst]; rfl)
    have hnot : ∀ x, (s.dom d).state = .committing → x := fun x hc => by rw [hrolling] at hc; cases hc
    split
    next => exact h
    next hslot =>
      have hslot : st.slot = none := by simpa using hslot
      split
      next hl =>
        unfold endRollback
        dsimp only
        rw [hst]
        exact record_coreFits (setDom_coreFits h (by rfl) ((h.domains d).rolledBack hst hslot hl _) (hnot _)) _
      next i rest hl =>
        split
        next => exact h
        next hany =>
          refine setDom_coreFits h (by rfl) ((h.domains d).takesNext hst hslot hl (fun j hj hv => hany ?_) rfl) (hnot _)
          rw [List.any_eq_true]
          exact ⟨j, hj, decide_eq_true (owns_eq_some_iff.mp hv).2.1⟩

end Sys2Proof.Machine
end

section
/-! An abort keeps the Host Port fitting to the working state (R33 to R36). -/

namespace Sys2Proof.Machine

theorem journalHit_eq_some_iff {s : State} {h : Hit} :
    s.journalHit = some h ↔ s.port.state = .deciding ∧ s.port.disp = some .journal ∧ s.port.cls = some (.hit h) := by
  unfold State.journalHit
  constructor
  · intro hh
    split at hh
    next hd =>
      split at hh
      next h' hc =>
        cases hh
        exact ⟨hd.1, hd.2, hc⟩
      next => cases hh
    next => cases hh
  · rintro ⟨hst, hd, hc⟩
    rw [if_pos ⟨hst, hd⟩, hc]

theorem journalHit_none {s : State} (h : s.port.state ≠ .deciding) : s.journalHit = none := if_neg fun hh => h hh.1

theorem journalHit_congr {s t : State} (h : t.port = s.port) : t.journalHit = s.journalHit := by
  rw [State.journalHit, State.journalHit, h]

theorem holdsWriteOf_iff {s : State} {d : Fin 4} : s.holdsWriteOf d = true ↔ ∃ h, s.journalHit = some h ∧ h.domain = d := by
  unfold State.holdsWriteOf
  constructor
  · intro hh
    rw [Bool.and_eq_true, Bool.and_eq_true, decide_eq_true_eq, decide_eq_true_eq] at hh
    obtain ⟨⟨hst, hd⟩, hc⟩ := hh
    split at hc
    next h hcls => exact ⟨h, journalHit_eq_some_iff.mpr ⟨hst, hd, hcls⟩, of_decide_eq_true hc⟩
    next => cases hc
  · rintro ⟨h, hh, hd⟩
    obtain ⟨hst, hdisp, hc⟩ := journalHit_eq_some_iff.mp hh
    subst hd
    rw [hst, hdisp, hc]
    simp

theorem slotComing_iff_slot {s : State} :
    s.slotComing = true ↔ ∃ i, (s.slot i).state = .retiring ∨ (s.slot i).state = .restoring := by
  unfold State.slotComing
  rw [pool_eq_map, List.any_map, List.any_eq_true]
  simp only [List.mem_range, Function.comp_apply, Bool.or_eq_true, decide_eq_true_eq]
  constructor
  · rintro ⟨i, -, hi⟩
    exact ⟨i, hi⟩
  · rintro ⟨i, hi⟩
    refine ⟨i, lt_of_notBad fun hb => ?_, hi⟩
    rw [hb] at hi
    obtain hi | hi := hi <;> cases hi

/-! ### What the Port depends on -/

/-- Only what the Port's write waits for matters. -/
theorem State.PortFits.congr {s t : State} (h : s.PortFits) (hport : t.port = s.port) (hcopy : t.copy = s.copy)
    (hcommit : t.commit = s.commit) (hlayout : t.layout = s.layout) (hindex : t.slotIndex = s.slotIndex)
    (hslot : ∀ j, (t.slot j).domain = (s.slot j).domain) (hcoming : s.slotComing = true → t.slotComing = true)
    (hdom : ∀ k, s.journalHit = some k → (t.dom k.domain).state = (s.dom k.domain).state
        ∧ (t.dom k.domain).members = (s.dom k.domain).members
      ∨ s.port.stage ≠ .slot ∧ s.port.stage ≠ .backlog ∧ s.port.stage ≠ .commitStore) : t.PortFits where
  copy hc := by
    rw [hport]
    exact h.copy (hcopy ▸ hc)
  commit hc := by
    rw [hport]
    exact h.commit (hcommit ▸ hc)
  held k hk := by
    rw [journalHit_congr hport] at hk
    obtain ⟨hsl, hcp, hb, hcs⟩ := h.held k hk
    have hcp' : t.port.stage = .copy → ∃ c, t.copy = some c ∧ (t.slot c.slot).domain = k.domain := by
      intro hg
      obtain ⟨c, hc, hd⟩ := hcp (hport ▸ hg)
      exact ⟨c, hcopy ▸ hc, (hslot _).trans hd⟩
    obtain ⟨hst, hm⟩ | ⟨h1, h2, h3⟩ := hdom k hk
    · refine ⟨fun hg => ?_, hcp', fun hg => ?_, fun hg => ?_⟩
      · obtain ⟨hr, hi, hc, hds⟩ := hsl (hport ▸ hg)
        rw [hst, hm, State.cfg, hlayout]
        refine ⟨hr, ?_, hcoming hc, hds⟩
        rw [State.indexed, hindex]
        exact hi
      · rw [hst]
        exact hb (hport ▸ hg)
      · rw [hst]
        exact hcs (hport ▸ hg)
    · exact ⟨fun hg => absurd (hport ▸ hg) h1, hcp', fun hg => absurd (hport ▸ hg) h2, fun hg => absurd (hport ▸ hg) h3⟩

/-- A Port that holds no write in decision, with no copy and no commit to serve. -/
theorem portFits_of_idle {s : State} (hcopy : s.copy = none) (hcommit : s.commit = none)
    (hheld : ∀ k, s.journalHit = some k → s.port.stage = .none ∨ s.port.stage = .store) : s.PortFits where
  copy h := absurd hcopy h
  commit h := absurd hcommit h
  held k hk := by
    obtain hg | hg := hheld k hk
    all_goals
      refine ⟨fun h => ?_, fun h => ?_, fun h => ?_, fun h => ?_⟩
      all_goals
        rw [hg] at h
        cases h

theorem journalHit_closePort (s : State) : (closePort s).journalHit = none := by
  refine journalHit_none fun h => ?_
  have hst : (if s.port.early = true then PortState.vacant else .closing) = .deciding := h
  split at hst <;> cases hst

/-- With the copy and the commit apart, a closed Port fits. -/
theorem portFits_closePort {s : State} (hcopy : s.copy = none) (hcommit : s.commit = none) : (closePort s).PortFits :=
  portFits_of_idle hcopy hcommit fun k hk => by rw [journalHit_closePort] at hk; cases hk

/-- Where the Port serves neither a copy nor a commit, there is none. -/
theorem State.PortFits.idle {s : State} (h : s.PortFits) (hc : s.port.state = .deciding → s.port.stage ≠ .copy)
    (he : s.port.state = .deciding → s.port.stage ≠ .epochWrite) : s.copy = none ∧ s.commit = none := by
  constructor
  · by_contra hcopy
    exact hc (h.copy hcopy).1 (h.copy hcopy).2
  · by_contra hcommit
    exact he (h.commit hcommit).1 (h.commit hcommit).2

/-! ### The abort -/

theorem slotComing_of_moved {s t : State} {l : List Nat} (h : s.Moved t .active .restoring l) (hs : s.slotComing = true) :
    t.slotComing = true := by
  obtain ⟨i, hi⟩ := slotComing_iff_slot.mp hs
  refine slotComing_iff_slot.mpr ⟨i, ?_⟩
  rw [h i, if_neg]
  · exact hi
  · rintro ⟨-, ha⟩
    rw [ha] at hi
    obtain hi | hi := hi <;> cases hi

theorem startRollback_port (d : Fin 4) (c : Cause) (s : State) : (startRollback d c s).port = s.port := by
  rw [startRollback_only]

/-- The held write settled at the start of a rollback (R34). -/
theorem dropHeld_startRollback_portFits {s : State} (hp : s.PortFits) {d : Fin 4} {c : Cause}
    (hs : (s.dom d).state = .idle ∨ (s.dom d).state = .opened) : (dropHeld d (startRollback d c s)).PortFits := by
  have hm : s.Moved (startRollback d c s) .active .restoring (s.dom d).members :=
    moved_of_movedPool SlotState.noConfusion (by rw [startRollback_only])
  have honly := startRollback_only s d c
  have hport := startRollback_port d c s
  have hstays : (∀ k, s.journalHit = some k → k.domain ≠ d
      ∨ s.port.stage ≠ .slot ∧ s.port.stage ≠ .backlog ∧ s.port.stage ≠ .commitStore) → (startRollback d c s).PortFits := by
    intro hk
    refine hp.congr hport (by rw [honly]) (by rw [honly]) (by rw [honly]) (by rw [honly]) (fun j => ?_)
      (slotComing_of_moved hm) fun k hkk => (hk k hkk).imp_left fun hne => ?_
    · rw [hm j]
      split <;> rfl
    · rw [startRollback_dom, if_neg (Ne.symm hne)]
      exact ⟨rfl, rfl⟩
  have hdrops : s.port.stage ≠ .copy → s.port.stage ≠ .epochWrite → (dropWrite .dropped (startRollback d c s)).PortFits := by
    intro hc he
    obtain ⟨hcopy, hcommit⟩ := hp.idle (fun _ => hc) fun _ => he
    rw [dropWrite_eq, honly]
    refine portFits_of_idle hcopy hcommit fun k hk => ?_
    rw [journalHit_none (by
      intro hst
      have hst : (if s.port.early = true then PortState.vacant else .closing) = .deciding := hst
      split at hst <;> cases hst)] at hk
    cases hk
  unfold dropHeld
  split
  next hh =>
    obtain ⟨k, hk, hkd⟩ := holdsWriteOf_iff.mp hh
    rw [journalHit_congr hport] at hk
    obtain ⟨-, -, -, hcs⟩ := hp.held k hk
    rw [hport]
    split
    next hg => exact hstays fun _ _ => .inr (by rw [hg]; exact ⟨WriteStage.noConfusion, WriteStage.noConfusion, WriteStage.noConfusion⟩)
    next hg =>
      split
      next => exact hstays fun _ _ => .inr (by rw [hg]; exact ⟨WriteStage.noConfusion, WriteStage.noConfusion, WriteStage.noConfusion⟩)
      next => exact hdrops (by rw [hg]; exact WriteStage.noConfusion) (by rw [hg]; exact WriteStage.noConfusion)
    next hg =>
      have hcommitting := hcs hg
      rw [hkd] at hcommitting
      obtain hs | hs := hs <;> rw [hs] at hcommitting <;> cases hcommitting
    next hg => exact hstays fun _ _ => .inr (by rw [hg]; exact ⟨WriteStage.noConfusion, WriteStage.noConfusion, WriteStage.noConfusion⟩)
    all_goals
      next hg => exact hdrops (by rw [hg]; exact WriteStage.noConfusion) (by rw [hg]; exact WriteStage.noConfusion)
  next hh =>
    refine hstays fun k hk => .inl fun hkd => hh (holdsWriteOf_iff.mpr ⟨k, ?_, hkd⟩)
    rw [journalHit_congr hport]
    exact hk

theorem dropHeld_cases (d : Fin 4) (s : State) : dropHeld d s = s ∨ dropHeld d s = dropWrite .dropped s := by
  unfold dropHeld
  split
  next =>
    split
    next => exact .inl rfl
    next => split <;> [exact .inl rfl; exact .inr rfl]
    next => exact .inl rfl
    next => exact .inl rfl
    all_goals exact .inr rfl
  next => exact .inl rfl

theorem dropWrite_coreFits {s : State} (h : s.CoreFits) (r : Reason) : (dropWrite r s).CoreFits := by
  rw [dropWrite_eq]
  exact h.congr rfl rfl rfl rfl rfl rfl rfl rfl

theorem dropHeld_coreFits {s : State} (h : s.CoreFits) (d : Fin 4) : (dropHeld d s).CoreFits := by
  obtain he | he := dropHeld_cases d s <;> rw [he]
  · exact h
  · exact dropWrite_coreFits h _

theorem record_portFits {s : State} (h : s.PortFits) (e : Event) : (record e s).PortFits := by
  rw [record_eq]
  exact h.congr rfl rfl rfl rfl rfl (fun _ => rfl) id fun _ _ => .inl ⟨rfl, rfl⟩

/-- A change of one domain's record leaves the Port fitting when the Port's write does not wait for that domain. -/
theorem setDom_portFits {s : State} (h : s.PortFits) {d : Fin 4} {r : Runtime}
    (hk : ∀ k, s.journalHit = some k → k.domain = d → r.state = (s.dom d).state ∧ r.members = (s.dom d).members
      ∨ s.port.stage ≠ .slot ∧ s.port.stage ≠ .backlog ∧ s.port.stage ≠ .commitStore) : (s.setDom d r).PortFits := by
  refine h.congr rfl rfl rfl rfl rfl (fun _ => rfl) id fun k hkk => ?_
  rw [State.dom_setDom]
  by_cases hd : d = k.domain
  · rw [if_pos hd, ← hd]
    exact hk k hkk hd.symm
  · rw [if_neg hd]
    exact .inl ⟨rfl, rfl⟩

/-- No write waits for a domain that is neither IDLE, OPEN nor COMMITTING. -/
theorem State.PortFits.waitsNot {s : State} (h : s.PortFits) {k : Hit} (hk : s.journalHit = some k)
    (hi : (s.dom k.domain).state ≠ .idle) (ho : (s.dom k.domain).state ≠ .opened) (hc : (s.dom k.domain).state ≠ .committing) :
    s.port.stage ≠ .slot ∧ s.port.stage ≠ .backlog ∧ s.port.stage ≠ .commitStore := by
  obtain ⟨hsl, -, hb, hcs⟩ := h.held k hk
  refine ⟨fun hg => ?_, fun hg => ho (hb hg), fun hg => hc (hcs hg)⟩
  obtain ⟨-, -, -, hs | ⟨hs, -⟩⟩ := hsl hg
  · exact hi hs
  · exact ho hs

theorem beginRestore_portFits {s : State} (h : s.CoreFits) (hp : s.PortFits) (d : Fin 4) : (beginRestore d s).PortFits := by
  unfold beginRestore
  dsimp only
  split
  next => exact hp
  next st hst =>
    have hrolling : (s.dom d).state = .rolling := (h.domains d).stream.mp (by rw [hst]; rfl)
    have hnot : ∀ k, s.journalHit = some k → k.domain = d →
        s.port.stage ≠ .slot ∧ s.port.stage ≠ .backlog ∧ s.port.stage ≠ .commitStore := by
      rintro k hk rfl
      refine hp.waitsNot hk ?_ ?_ ?_ <;> rw [hrolling] <;> exact UpdateState.noConfusion
    split
    next => exact hp
    next =>
      split
      next =>
        unfold endRollback
        dsimp only
        rw [hst]
        exact record_portFits (setDom_portFits hp fun k hk hd => .inr (hnot k hk hd)) _
      next =>
        split
        next => exact hp
        next => exact setDom_portFits hp fun k hk hd => .inr (hnot k hk hd)

/-- An abort of an OPEN update, or of an IDLE domain's empty one, keeps the working state and the Port fitting (R33, R35). -/
theorem abortUpdate_fits {s : State} (h : s.CoreFits) (hp : s.PortFits) {d : Fin 4} (c : Cause)
    (hs : (s.dom d).state = .idle ∨ (s.dom d).state = .opened) : (abortUpdate d c s).CoreFits ∧ (abortUpdate d c s).PortFits := by
  have hcore := dropHeld_coreFits (startRollback_coreFits (c := c) h hs) d
  exact ⟨beginRestore_coreFits hcore d, beginRestore_portFits hcore (dropHeld_startRollback_portFits hp hs) d⟩

end Sys2Proof.Machine
end

section
/-! The pool with its queues and index when a slot is taken, given up, committed or retired (R23, R26, R30, R54 to R56, R60). -/

namespace Sys2Proof.Machine

theorem indexed_eq_none_iff {s : State} {r : Fin 16} {n : Nat} :
    s.indexed r n = none ↔ (r, n) ∉ s.slotIndex.map fun e => (e.region, e.record) := by
  unfold State.indexed
  rw [Option.map_eq_none_iff, List.find?_eq_none]
  simp only [List.mem_map, Bool.and_eq_true, decide_eq_true_eq, Prod.mk.injEq, not_exists, not_and]

/-- A slot that is FREE or BAD holds no record. -/
theorem holds_of_free_or_bad {x : SlotState} (h : x = .free ∨ x = .bad) : x.holdsRecord = false := by
  obtain rfl | rfl := h <;> rfl

/-- A slot that becomes FREE goes to the tail of the Free Queue, one that becomes BAD does not (R60, R88, R97, R99). -/
theorem State.PoolFits.freeTail {s : State} (h : s.PoolFits) {i : Nat} {x : SlotState} {free : List Nat}
    (hi : (s.slot i).state ≠ .free) (he : x = .free ∧ free = s.freeQueue ++ [i] ∨ x = .bad ∧ free = s.freeQueue) :
    free.Nodup ∧ ∀ j, j ∈ free ↔ j ∈ s.freeQueue ∨ j = i ∧ x = .free := by
  obtain ⟨hs, rfl⟩ | ⟨rfl, rfl⟩ := he
  · refine ⟨List.nodup_append.mpr ⟨h.free.1, List.nodup_singleton i, fun a ha b hb hab => hi ?_⟩, fun j => ?_⟩
    · rw [← List.mem_singleton.mp hb, ← hab]
      exact (h.free.2 a).mp ha
    · rw [List.mem_append, List.mem_singleton, and_iff_left hs]
  · exact ⟨h.free.1, fun j => ⟨.inl, fun hj => hj.elim id fun hj => SlotState.noConfusion hj.2⟩⟩

section OneSlot

variable {s t : State} {i : Nat} {e : PoolEntry}

/-- The FREE slot at the head of the Free Queue takes a record (R23). -/
theorem State.PoolFits.takes (h : s.PoolFits) {rest : List Nat} (hq : s.freeQueue = i :: rest) (ht : s.Changed t i e)
    (he : e.state.holdsRecord = true) (hed : (s.layout.regions[e.region]).domain = e.domain)
    (hidx : s.indexed e.region e.record = none) (hfree : t.freeQueue = rest) (hretire : t.retireQueue = s.retireQueue)
    (hindex : t.slotIndex = s.slotIndex ++ [{ region := e.region, record := e.record, slot := i }])
    (hlayout : t.layout = s.layout) (hbacklog : ∀ d, (t.dom d).backlog = (s.dom d).backlog)
    (hcopy : ∀ c, t.copy = some c → (t.slot c.slot).state = .copying) : t.PoolFits := by
  obtain ⟨hnodup, hmem⟩ := h.free
  rw [hq] at hnodup hmem
  obtain ⟨hnot, hrest⟩ := List.nodup_cons.mp hnodup
  have hi : (s.slot i).state = .free := (hmem i).mp List.mem_cons_self
  have hsame : ∀ j, j ≠ i → t.slot j = s.slot j := fun j hj => (ht j).trans (if_neg hj)
  have hnew : t.slot i = e := (ht i).trans (if_pos rfl)
  have hne : ∀ x ∈ s.slotIndex, x.slot ≠ i := by
    rintro x hx rfl
    have hh := (h.indexed x hx).1
    rw [hi] at hh
    cases hh
  exact {
    free := by
      refine ⟨hfree ▸ hrest, fun j => ?_⟩
      rw [hfree]
      by_cases hj : j = i
      · subst hj
        rw [hnew]
        exact ⟨fun hm => absurd hm hnot, fun hm => by rw [hm] at he; cases he⟩
      · rw [hsame j hj, ← hmem j, List.mem_cons]
        exact ⟨.inr, fun hm => hm.resolve_left hj⟩
    retire := by
      refine ⟨hretire ▸ h.retire.1, fun j => ?_⟩
      rw [hretire, h.retire.2 j]
      by_cases hj : j = i
      · subst hj
        rw [hnew, hi]
        exact ⟨fun hm => SlotState.noConfusion hm, fun hm => by rw [hm] at he; cases he⟩
      · rw [hsame j hj]
    backlog := fun d => by
      rw [hbacklog, h.backlog d, hretire]
      refine congrArg List.length (List.filter_congr fun j hj => ?_)
      rw [hsame j (fun hji => by rw [hji, h.retire.2 i, hi] at hj; cases hj)]
    indexSlots := by
      rw [hindex, List.map_append, List.nodup_append]
      refine ⟨h.indexSlots, List.nodup_singleton _, fun a ha b hb => ?_⟩
      obtain ⟨x, hx, rfl⟩ := List.mem_map.mp ha
      rw [List.mem_singleton.mp hb]
      exact hne x hx
    indexRecords := by
      rw [hindex, List.map_append, List.nodup_append]
      refine ⟨h.indexRecords, List.nodup_singleton _, fun a ha b hb => ?_⟩
      rw [List.mem_singleton.mp hb]
      exact fun hab => indexed_eq_none_iff.mp hidx (by rw [hab] at ha; exact ha)
    indexed := fun x hx => by
      rw [hindex, List.mem_append, List.mem_singleton] at hx
      obtain hx | rfl := hx
      · rw [hsame x.slot (hne x hx)]
        exact h.indexed x hx
      · rw [hnew]
        exact ⟨he, rfl, rfl⟩
    covered := fun j hj => by
      rw [hindex, List.map_append, List.mem_append]
      by_cases hji : j = i
      · exact .inr (List.mem_singleton.mpr hji)
      · rw [hsame j hji] at hj
        exact .inl (h.covered j hj)
    owned := fun j hj => by
      rw [hlayout]
      by_cases hji : j = i
      · subst hji
        simp only [hnew]
        exact hed
      · simp only [hsame j hji] at hj ⊢
        exact h.owned j hj
    copy := hcopy }

/-- A slot gives up its record: it is FREE or BAD and leaves the Slot Index (R26, R88, R96, R99). -/
theorem State.PoolFits.leaves (h : s.PoolFits) (hs : (s.slot i).state.holdsRecord = true) (ht : s.Changed t i e)
    (he : e.state = .free ∨ e.state = .bad)
    (hfree : t.freeQueue.Nodup ∧ ∀ j, j ∈ t.freeQueue ↔ j ∈ s.freeQueue ∨ j = i ∧ e.state = .free)
    (hretire : t.retireQueue = s.retireQueue) (hindex : t.slotIndex = s.slotIndex.filter fun x => decide (x.slot ≠ i))
    (hlayout : t.layout = s.layout) (hbacklog : ∀ d, (t.dom d).backlog = (s.dom d).backlog)
    (hcopy : ∀ c, t.copy = some c → (t.slot c.slot).state = .copying) : t.PoolFits := by
  have hsame : ∀ j, j ≠ i → t.slot j = s.slot j := fun j hj => (ht j).trans (if_neg hj)
  have hnew : t.slot i = e := (ht i).trans (if_pos rfl)
  have heh := holds_of_free_or_bad he
  have hmem : ∀ x, x ∈ t.slotIndex ↔ x ∈ s.slotIndex ∧ x.slot ≠ i := fun x => by
    rw [hindex, List.mem_filter, decide_eq_true_eq]
  have hsub : t.slotIndex.Sublist s.slotIndex := hindex ▸ List.filter_sublist
  exact {
    free := by
      refine ⟨hfree.1, fun j => ?_⟩
      rw [hfree.2 j, h.free.2 j]
      by_cases hj : j = i
      · subst hj
        rw [hnew]
        exact ⟨fun hm => hm.elim (fun hf => by rw [hf] at hs; cases hs) fun hm => hm.2, fun hm => .inr ⟨rfl, hm⟩⟩
      · rw [hsame j hj]
        exact ⟨fun hm => hm.resolve_right fun hm => hj hm.1, .inl⟩
    retire := by
      refine ⟨hretire ▸ h.retire.1, fun j => ?_⟩
      rw [hretire, h.retire.2 j]
      by_cases hj : j = i
      · subst hj
        rw [hnew]
        constructor
        · intro hm
          rw [hm] at hs
          cases hs
        · intro hm
          rw [hm] at he
          obtain he | he := he <;> cases he
      · rw [hsame j hj]
    backlog := fun d => by
      rw [hbacklog, h.backlog d, hretire]
      refine congrArg List.length (List.filter_congr fun j hj => ?_)
      rw [hsame j (fun hji => by rw [h.retire.2 j, hji] at hj; rw [hj] at hs; cases hs)]
    indexSlots := h.indexSlots.sublist (hsub.map _)
    indexRecords := h.indexRecords.sublist (hsub.map _)
    indexed := fun x hx => by
      obtain ⟨hx, hne⟩ := (hmem x).mp hx
      rw [hsame x.slot hne]
      exact h.indexed x hx
    covered := fun j hj => by
      by_cases hji : j = i
      · subst hji
        rw [hnew, heh] at hj
        cases hj
      · rw [hsame j hji] at hj
        obtain ⟨x, hx, rfl⟩ := List.mem_map.mp (h.covered j hj)
        exact List.mem_map.mpr ⟨x, (hmem x).mpr ⟨hx, hji⟩, rfl⟩
    owned := fun j hj => by
      rw [hlayout]
      by_cases hji : j = i
      · subst hji
        rw [hnew, heh] at hj
        cases hj
      · simp only [hsame j hji] at hj ⊢
        exact h.owned j hj
    copy := hcopy }

/-- The head of the Retire Queue leaves it, FREE or BAD (R60, R97). -/
theorem State.PoolFits.retired (h : s.PoolFits) {rest : List Nat} (hq : s.retireQueue = i :: rest) (ht : s.Changed t i e)
    (he : e.state = .free ∨ e.state = .bad)
    (hfree : t.freeQueue.Nodup ∧ ∀ j, j ∈ t.freeQueue ↔ j ∈ s.freeQueue ∨ j = i ∧ e.state = .free)
    (hretire : t.retireQueue = rest) (hindex : t.slotIndex = s.slotIndex) (hlayout : t.layout = s.layout)
    (hbacklog : ∀ d, (t.dom d).backlog = if (s.slot i).domain = d then (s.dom d).backlog - 1 else (s.dom d).backlog)
    (hcopy : ∀ c, t.copy = some c → (t.slot c.slot).state = .copying) : t.PoolFits := by
  obtain ⟨hnodup, hmem⟩ := h.retire
  rw [hq] at hnodup hmem
  obtain ⟨hnot, hrest⟩ := List.nodup_cons.mp hnodup
  have hi : (s.slot i).state = .retiring := (hmem i).mp List.mem_cons_self
  have hsame : ∀ j, j ≠ i → t.slot j = s.slot j := fun j hj => (ht j).trans (if_neg hj)
  have hnew : t.slot i = e := (ht i).trans (if_pos rfl)
  have heh := holds_of_free_or_bad he
  have hne : ∀ x ∈ s.slotIndex, x.slot ≠ i := by
    rintro x hx rfl
    have hh := (h.indexed x hx).1
    rw [hi] at hh
    cases hh
  exact {
    free := by
      refine ⟨hfree.1, fun j => ?_⟩
      rw [hfree.2 j, h.free.2 j]
      by_cases hj : j = i
      · subst hj
        rw [hnew, hi]
        exact ⟨fun hm => hm.elim (fun hf => SlotState.noConfusion hf) fun hm => hm.2, fun hm => .inr ⟨rfl, hm⟩⟩
      · rw [hsame j hj]
        exact ⟨fun hm => hm.resolve_right fun hm => hj hm.1, .inl⟩
    retire := by
      refine ⟨hretire ▸ hrest, fun j => ?_⟩
      rw [hretire]
      by_cases hj : j = i
      · subst hj
        rw [hnew]
        refine ⟨fun hm => absurd hm hnot, fun hm => ?_⟩
        rw [hm] at he
        obtain he | he := he <;> cases he
      · rw [hsame j hj, ← hmem j, List.mem_cons]
        exact ⟨.inr, fun hm => hm.resolve_left hj⟩
    backlog := fun d => by
      have hcount : (rest.filter fun j => decide ((t.slot j).domain = d)) = rest.filter fun j => decide ((s.slot j).domain = d) :=
        List.filter_congr fun j hj => by rw [hsame j fun hji => hnot (hji ▸ hj)]
      rw [hbacklog, h.backlog d, hretire, hcount, hq, List.filter_cons]
      by_cases hd : (s.slot i).domain = d
      · rw [if_pos hd, if_pos (decide_eq_true hd)]
        rfl
      · rw [if_neg hd, if_neg (by rw [decide_eq_false hd]; decide)]
    indexSlots := hindex ▸ h.indexSlots
    indexRecords := hindex ▸ h.indexRecords
    indexed := fun x hx => by
      rw [hindex] at hx
      rw [hsame x.slot (hne x hx)]
      exact h.indexed x hx
    covered := fun j hj => by
      rw [hindex]
      by_cases hji : j = i
      · subst hji
        rw [hnew, heh] at hj
        cases hj
      · rw [hsame j hji] at hj
        exact h.covered j hj
    owned := fun j hj => by
      rw [hlayout]
      by_cases hji : j = i
      · subst hji
        rw [hnew, heh] at hj
        cases hj
      · simp only [hsame j hji] at hj ⊢
        exact h.owned j hj
    copy := hcopy }

end OneSlot

/-- The ACTIVE slots of a domain without backlog go RETIRING to the tail of the Retire Queue (R30). -/
theorem State.PoolFits.commits {s t : State} (h : s.PoolFits) {d : Fin 4} {l : List Nat} (hl : l.Nodup)
    (hall : ∀ j ∈ l, (s.slot j).state = .active ∧ (s.slot j).domain = d) (hb : (s.dom d).backlog = 0)
    (ht : s.Moved t .active .retiring l) (hfree : t.freeQueue = s.freeQueue) (hretire : t.retireQueue = s.retireQueue ++ l)
    (hindex : t.slotIndex = s.slotIndex.filter fun x => decide (x.slot ∉ l)) (hlayout : t.layout = s.layout)
    (hbacklog : ∀ e, (t.dom e).backlog = if d = e then l.length else (s.dom e).backlog)
    (hcopy : ∀ c, t.copy = some c → s.copy = some c) : t.PoolFits := by
  have hin : ∀ j, j ∈ l → t.slot j = { s.slot j with state := .retiring } := fun j hj =>
    (ht j).trans (if_pos ⟨hj, (hall j hj).1⟩)
  have hout : ∀ j, j ∉ l → t.slot j = s.slot j := fun j hj => (ht j).trans (if_neg fun hh => hj hh.1)
  have hdomain : ∀ j, (t.slot j).domain = (s.slot j).domain := fun j => by rw [ht j]; split <;> rfl
  have hmem : ∀ x, x ∈ t.slotIndex ↔ x ∈ s.slotIndex ∧ x.slot ∉ l := fun x => by
    rw [hindex, List.mem_filter, decide_eq_true_eq]
  have hsub : t.slotIndex.Sublist s.slotIndex := hindex ▸ List.filter_sublist
  have hempty : s.retireQueue.filter (fun j => decide ((s.slot j).domain = d)) = [] :=
    List.eq_nil_of_length_eq_zero ((h.backlog d).symm.trans hb)
  exact {
    free := by
      refine ⟨hfree ▸ h.free.1, fun j => ?_⟩
      rw [hfree, h.free.2 j]
      by_cases hj : j ∈ l
      · rw [hin j hj, (hall j hj).1]
        exact ⟨fun hm => SlotState.noConfusion hm, fun hm => SlotState.noConfusion hm⟩
      · rw [hout j hj]
    retire := by
      refine ⟨?_, fun j => ?_⟩
      · rw [hretire, List.nodup_append]
        refine ⟨h.retire.1, hl, fun a ha b hb hab => ?_⟩
        rw [h.retire.2 a, hab, (hall b hb).1] at ha
        cases ha
      · rw [hretire, List.mem_append, h.retire.2 j]
        by_cases hj : j ∈ l
        · rw [hin j hj]
          exact ⟨fun _ => rfl, fun _ => .inr hj⟩
        · rw [hout j hj]
          exact ⟨fun hm => hm.resolve_right hj, .inl⟩
    backlog := fun e => by
      rw [hbacklog, hretire, List.filter_append, List.length_append]
      simp only [hdomain]
      by_cases he : d = e
      · subst he
        have hself : l.filter (fun j => decide ((s.slot j).domain = d)) = l :=
          List.filter_eq_self.mpr fun j hj => decide_eq_true (hall j hj).2
        rw [if_pos rfl, hempty, hself]
        exact (Nat.zero_add _).symm
      · have hnone : l.filter (fun j => decide ((s.slot j).domain = e)) = [] :=
          List.filter_eq_nil_iff.mpr fun j hj hd => he ((hall j hj).2.symm.trans (of_decide_eq_true hd))
        rw [if_neg he, hnone, h.backlog e]
        rfl
    indexSlots := h.indexSlots.sublist (hsub.map _)
    indexRecords := h.indexRecords.sublist (hsub.map _)
    indexed := fun x hx => by
      obtain ⟨hx, hne⟩ := (hmem x).mp hx
      rw [hout x.slot hne]
      exact h.indexed x hx
    covered := fun j hj => by
      by_cases hjl : j ∈ l
      · rw [hin j hjl] at hj
        cases hj
      · rw [hout j hjl] at hj
        obtain ⟨x, hx, rfl⟩ := List.mem_map.mp (h.covered j hj)
        exact List.mem_map.mpr ⟨x, (hmem x).mpr ⟨hx, hjl⟩, rfl⟩
    owned := fun j hj => by
      rw [hlayout]
      by_cases hjl : j ∈ l
      · rw [hin j hjl] at hj
        cases hj
      · simp only [hout j hjl] at hj ⊢
        exact h.owned j hj
    copy := fun c hc => by
      have hs := h.copy c (hcopy c hc)
      rw [hout c.slot fun hm => by rw [(hall _ hm).1] at hs; cases hs]
      exact hs }

end Sys2Proof.Machine
end

section
/-! Joins, commit attempts and dispositions keep the working state and the Port fitting (R22 to R24, R28 to R30, R77 to R82). -/

namespace Sys2Proof.Machine

/-- The working state and the Port fit, apart from what the modes add. -/
structure State.Runs (s : State) : Prop where
  core : s.CoreFits
  port : s.PortFits

/-- The Port's write is in decision, and no stream serves it. -/
structure State.Undecided (s : State) (h : Hit) : Prop where
  core : s.CoreFits
  hit : s.journalHit = some h
  copy : s.copy = none
  commit : s.commit = none

theorem State.CoreFits.noCopying {s : State} (h : s.CoreFits) (hc : s.copy = none) (j : Nat) : (s.slot j).state ≠ .copying := by
  intro hj
  have hcopy := ((h.domains _).copying j (owns_eq_some_iff.mpr ⟨rfl, hj, rfl⟩)).1
  rw [hc] at hcopy
  cases hcopy

theorem State.CoreFits.owns_noCopying {s : State} (h : s.CoreFits) (hc : s.copy = none) (d : Fin 4) (j : Nat) :
    s.owns d j ≠ some .copying := fun hj => h.noCopying hc j (owns_eq_some_iff.mp hj).2.1

/-- The entry of a slot that a record has joined into (R23). -/
def State.joinedEntry (s : State) (h : Hit) : PoolEntry :=
  { state := .copying, domain := h.domain, epoch := (s.dom h.domain).committed + 1, region := h.region, record := h.record }

theorem joined_coreFits {s : State} {h : Hit} {i : Nat} {rest : List Nat} (hu : s.Undecided h) (hf : s.freeQueue = i :: rest)
    (hreg : (s.layout.regions[h.region]).domain = h.domain) (hidx : s.indexed h.region h.record = none)
    (hs : (s.dom h.domain).state = .idle ∨ (s.dom h.domain).state = .opened)
    (hq : (s.dom h.domain).members.length < (s.cfg h.domain).quota) :
    (s.joined h i rest).CoreFits ∧ ((s.joined h i rest).slot i).domain = h.domain := by
  obtain ⟨hcore, hhit, hcopy, hcommit⟩ := hu
  have hfree : (s.slot i).state = .free := (hcore.pool.free.2 i).mp (by rw [hf]; exact List.mem_cons_self)
  have hchanged : s.Changed (s.joined h i rest) i (s.joinedEntry h) :=
    changed_of_set (by rw [hfree]; exact SlotState.noConfusion) rfl
  have hdom : ∀ e, (s.joined h i rest).dom e = if h.domain = e then { s.dom h.domain with
      state := .opened
      timer := if (s.dom h.domain).state = .idle then (s.cfg h.domain).deadline.toNat else (s.dom h.domain).timer
      members := (s.dom h.domain).members ++ [i] } else s.dom e := fun e => getElem_set_domain
  have hnone : s.owns h.domain i = none := owns_eq_none fun hh => by rw [hfree] at hh; cases hh
  have hnew : ((s.joined h i rest).slot i) = s.joinedEntry h := (hchanged i).trans (if_pos rfl)
  have hbacklog : ∀ d, ((s.joined h i rest).dom d).backlog = (s.dom d).backlog := by
    intro d
    rw [hdom]
    split
    next hd => rw [← hd]
    next => rfl
  have hpool : (s.joined h i rest).PoolFits := by
    refine State.PoolFits.takes (e := s.joinedEntry h) hcore.pool hf hchanged rfl hreg hidx rfl rfl rfl rfl hbacklog fun c hc => ?_
    cases hc
    exact congrArg PoolEntry.state hnew
  refine ⟨hcore.of_domain (d := h.domain) hpool rfl (fun e he => ⟨?_, ?_⟩) ?_ (.inr fun e _ => hcore.owns_noCopying hcopy e)
    (fun c hc => ?_) (fun hc => absurd hcommit hc), congrArg PoolEntry.domain hnew⟩
  · exact owns_changed_other hchanged (fun hh => by rw [hfree] at hh; cases hh) fun _ => Ne.symm he
  · rw [hdom, if_neg (Ne.symm he)]
  · rw [owns_changed hchanged, if_pos ⟨rfl, rfl⟩, hdom, if_pos rfl]
    exact (hcore.domains h.domain).joins hs hnone (hcore.owns_noCopying hcopy h.domain) hq
  · have hc' : s.commit = some c := hc
    rw [hcommit] at hc'
    cases hc'

/-- The slot at the head of the Free Queue is taken (R23). -/
theorem takeSlot_runs {s : State} {h : Hit} {i : Nat} {rest : List Nat} (hu : s.Undecided h) (hf : s.freeQueue = i :: rest)
    (hreg : (s.layout.regions[h.region]).domain = h.domain) (hidx : s.indexed h.region h.record = none)
    (hs : (s.dom h.domain).state = .idle ∨ (s.dom h.domain).state = .opened)
    (hq : (s.dom h.domain).members.length < (s.cfg h.domain).quota) : (takeSlot h i rest s).Runs := by
  obtain ⟨hjoined, hslot⟩ := joined_coreFits hu hf hreg hidx hs hq
  rw [takeSlot_eq]
  refine ⟨hjoined.congr rfl rfl rfl rfl rfl rfl rfl rfl, fun _ => ⟨(journalHit_eq_some_iff.mp hu.hit).1, rfl⟩,
    fun hc => absurd hu.commit hc, fun k hk => ?_⟩
  have hkh : s.journalHit = some k := hk
  rw [hu.hit] at hkh
  cases hkh
  exact ⟨fun hg => WriteStage.noConfusion hg, fun _ => ⟨_, rfl, hslot⟩, fun hg => WriteStage.noConfusion hg,
    fun hg => WriteStage.noConfusion hg⟩

/-- An abort with the Port's own write still undecided (R33 to R35). -/
theorem abort_undecided_runs {s : State} {h : Hit} (hu : s.Undecided h) (hg : s.port.stage = .none) (c : Cause)
    (hs : (s.dom h.domain).state = .idle ∨ (s.dom h.domain).state = .opened) : (abortUpdate h.domain c s).Runs := by
  obtain ⟨hcore, hport⟩ := abortUpdate_fits hu.core (portFits_of_idle hu.copy hu.commit fun _ _ => .inl hg) c hs
  exact ⟨hcore, hport⟩

/-- An abort settles a write of the domain that waits for a slot like one that waits for nothing (R34). -/
theorem abortUpdate_waitingSlot {s : State} {h : Hit} (hh : s.journalHit = some h) (hg : s.port.stage = .slot) (c : Cause) :
    abortUpdate h.domain c s = abortUpdate h.domain c (setStage .none s) := by
  have hdrops : ∀ u : State, u.port = s.port → dropHeld h.domain u = dropWrite .dropped u ∧
      dropHeld h.domain (setStage .none u) = dropWrite .dropped u := by
    intro u hu
    have hholds : u.holdsWriteOf h.domain = true := holdsWriteOf_iff.mpr ⟨h, (journalHit_congr hu).trans hh, rfl⟩
    refine ⟨?_, ?_⟩
    · unfold dropHeld
      rw [if_pos hholds, hu, hg]
    · unfold dropHeld
      rw [if_pos (by exact hholds), show (setStage .none u).port.stage = .none from rfl, dropWrite_eq, dropWrite_eq]
      simp only [record_events]
      rfl
  have hstart : startRollback h.domain c (setStage .none s) = setStage .none (startRollback h.domain c s) := by
    rw [startRollback_only, startRollback_only]
    rfl
  obtain ⟨hslot, hnone⟩ := hdrops (startRollback h.domain c s) (startRollback_port _ _ _)
  rw [abortUpdate, abortUpdate, hstart, hslot, hnone]

/-- The slot for a join is sought (R23, R24). -/
theorem seekSlot_runs {s : State} {h : Hit} (hu : s.Undecided h) (hg : s.port.stage = .none ∨ s.port.stage = .slot)
    (hreg : (s.layout.regions[h.region]).domain = h.domain) (hidx : s.indexed h.region h.record = none)
    (hs : (s.dom h.domain).state = .idle ∨ (s.dom h.domain).state = .opened)
    (hq : (s.dom h.domain).members.length < (s.cfg h.domain).quota) : (seekSlot h s).Runs := by
  unfold seekSlot
  split
  next i rest hf => exact takeSlot_runs hu hf hreg hidx hs hq
  next =>
    split
    next hcoming =>
      refine ⟨hu.core.congr rfl rfl rfl rfl rfl rfl rfl rfl, fun hc => absurd hu.copy hc, fun hc => absurd hu.commit hc,
        fun k hk => ?_⟩
      have hkh : s.journalHit = some k := hk
      rw [hu.hit] at hkh
      cases hkh
      exact ⟨fun _ => ⟨hreg, hidx, hcoming, hs.imp_right fun hs => ⟨hs, hq⟩⟩, fun hg => WriteStage.noConfusion hg,
        fun hg => WriteStage.noConfusion hg, fun hg => WriteStage.noConfusion hg⟩
    next =>
      obtain hg | hg := hg
      · exact abort_undecided_runs hu hg _ hs
      · rw [abortUpdate_waitingSlot hu.hit hg]
        exact abort_undecided_runs (s := setStage .none s)
          ⟨hu.core.congr rfl rfl rfl rfl rfl rfl rfl rfl, hu.hit, hu.copy, hu.commit⟩ rfl _ hs

/-- A record that is not in the Slot Index joins (R23). -/
theorem joinRecord_runs {s : State} {h : Hit} (hu : s.Undecided h) (hg : s.port.stage = .none)
    (hreg : (s.layout.regions[h.region]).domain = h.domain) (hidx : s.indexed h.region h.record = none)
    (hs : (s.dom h.domain).state = .idle ∨ (s.dom h.domain).state = .opened) (hquota : 1 ≤ (s.cfg h.domain).quota) :
    (joinRecord h s).Runs := by
  unfold joinRecord
  split
  next hfull => exact abort_undecided_runs hu hg _ hs
  next hfull =>
    refine seekSlot_runs hu (.inl hg) hreg hidx hs ?_
    obtain hs | hs := hs
    · rw [(hu.core.domains h.domain).noMembers (by rw [hs]; exact UpdateState.noConfusion) (by rw [hs]; exact UpdateState.noConfusion)]
      exact hquota
    · exact Nat.lt_of_not_le fun hle => hfull ⟨hs, hle⟩

/-- The guard of a commit attempt is evaluated (R11, R12, R30). -/
theorem evaluateGuard_runs {s : State} {h : Hit} (hu : s.Undecided h) (hs : (s.dom h.domain).state = .opened)
    (hb : (s.dom h.domain).backlog = 0) : (evaluateGuard h s).Runs := by
  unfold evaluateGuard
  dsimp only
  split
  next =>
    have hset : (s.setDom h.domain { s.dom h.domain with state := .committing, timer := 0 }).CoreFits :=
      setDom_coreFits hu.core (by rfl) ((hu.core.domains h.domain).commits hs hb (hu.core.owns_noCopying hu.copy h.domain))
        fun _ => rfl
    refine ⟨hset.congr rfl rfl rfl rfl rfl rfl rfl rfl, fun hc => absurd hu.copy hc, fun hc => absurd hu.commit hc, fun k hk => ?_⟩
    have hkh : s.journalHit = some k := hk
    rw [hu.hit] at hkh
    cases hkh
    refine ⟨fun hg => WriteStage.noConfusion hg, fun hg => WriteStage.noConfusion hg, fun hg => WriteStage.noConfusion hg,
      fun _ => ?_⟩
    have hdom := s.dom_setDom h.domain h.domain { s.dom h.domain with state := .committing, timer := 0 }
    rw [if_pos rfl] at hdom
    exact congrArg Runtime.state hdom
  next =>
    exact abort_undecided_runs (s := setStage .none (setBoost false s))
      ⟨hu.core.congr rfl rfl rfl rfl rfl rfl rfl rfl, hu.hit, hu.copy, hu.commit⟩ rfl _ (.inr hs)

/-- A commit attempt waits for backlog or is judged (R28, R29). -/
theorem commitAttempt_runs {s : State} {h : Hit} (hu : s.Undecided h) (hs : (s.dom h.domain).state = .opened) :
    (commitAttempt h s).Runs := by
  unfold commitAttempt
  split
  next hb => exact evaluateGuard_runs hu hs hb
  next =>
    refine ⟨hu.core.congr rfl rfl rfl rfl rfl rfl rfl rfl, fun hc => absurd hu.copy hc, fun hc => absurd hu.commit hc,
      fun k hk => ?_⟩
    have hkh : s.journalHit = some k := hk
    rw [hu.hit] at hkh
    cases hkh
    exact ⟨fun hg => WriteStage.noConfusion hg, fun hg => WriteStage.noConfusion hg, fun _ => hs,
      fun hg => WriteStage.noConfusion hg⟩

/-- The Port's access ends (R64). -/
theorem closePort_runs {s : State} (h : s.CoreFits) (hcopy : s.copy = none) (hcommit : s.commit = none) : (closePort s).Runs :=
  ⟨h.congr rfl rfl rfl rfl rfl rfl rfl rfl, portFits_closePort hcopy hcommit⟩

theorem dropWrite_runs {s : State} (h : s.CoreFits) (hcopy : s.copy = none) (hcommit : s.commit = none) (r : Reason) :
    (dropWrite r s).Runs := by
  unfold dropWrite
  refine closePort_runs ?_ ?_ ?_
  all_goals
    unfold reportWrite
    rw [record_eq]
  · exact h.congr rfl rfl rfl rfl rfl rfl rfl rfl
  · exact hcopy
  · exact hcommit

/-- The Slot Index's slot for a record holds a record of the record's region. -/
theorem State.CoreFits.indexed_domain {s : State} (h : s.CoreFits) {r : Fin 16} {n i : Nat} (hi : s.indexed r n = some i) :
    (s.slot i).state.holdsRecord = true ∧ (s.slot i).domain = (s.layout.regions[r]).domain := by
  unfold State.indexed at hi
  obtain ⟨e, he, rfl⟩ := Option.map_eq_some_iff.mp hi
  have hmem := List.mem_of_find?_eq_some he
  have htest := List.find?_some he
  rw [Bool.and_eq_true, decide_eq_true_eq] at htest
  obtain ⟨hs, hr, -⟩ := h.pool.indexed e hmem
  refine ⟨hs, ?_⟩
  have howned := h.pool.owned e.slot hs
  simp only [hr, htest.1] at howned
  exact howned.symm

/-- Where an IDLE or OPEN domain has no ACTIVE slot for a record and none is COPYING, the Slot Index has none (R51, R55). -/
theorem State.CoreFits.indexed_none {s : State} (h : s.CoreFits) {k : Hit} (hcopy : s.copy = none)
    (hreg : (s.layout.regions[k.region]).domain = k.domain)
    (hs : (s.dom k.domain).state = .idle ∨ (s.dom k.domain).state = .opened ∧ s.isMember k = false) :
    s.indexed k.region k.record = none := by
  cases hi : s.indexed k.region k.record with
  | none => rfl
  | some i =>
    obtain ⟨hh, hd⟩ := h.indexed_domain hi
    rw [hreg] at hd
    have hfits := h.domains k.domain
    have howns : ∀ x, (s.slot i).state = x → x.holdsRecord = true → s.owns k.domain i = some x := fun x hx hxh =>
      owns_eq_some_iff.mpr ⟨hxh, hx, hd⟩
    exfalso
    cases hst : (s.slot i).state with
    | copying => exact h.noCopying hcopy i hst
    | active =>
      obtain hs | ⟨-, hm⟩ := hs
      · obtain ⟨ho | ho, -⟩ := hfits.active i (howns _ hst rfl) <;> rw [hs] at ho <;> cases ho
      · unfold State.isMember at hm
        rw [hi] at hm
        dsimp only at hm
        rw [hst] at hm
        cases hm
    | restoring =>
      have hr := (hfits.restoring i (howns _ hst rfl)).1
      obtain hs | ⟨hs, -⟩ := hs <;> rw [hs] at hr <;> cases hr
    | stranded =>
      have hr := hfits.stranded i (howns _ hst rfl)
      obtain hs | ⟨hs, -⟩ := hs <;> rw [hs] at hr <;> cases hr
    | free => rw [hst] at hh; cases hh
    | retiring => rw [hst] at hh; cases hh
    | bad => rw [hst] at hh; cases hh

/-- A write just handed to the Update Controller is disposed of (R22, R27, R28). -/
theorem decideJournal_runs {s : State} {h : Hit} (hu : s.Undecided h) (hg : s.port.stage = .none)
    (hreg : (s.layout.regions[h.region]).domain = h.domain) (hquota : 1 ≤ (s.cfg h.domain).quota) : (decideJournal h s).Runs := by
  have hstays : ∀ {g : WriteStage}, g = .none ∨ g = .store → (setStage g s).Runs := fun hg =>
    ⟨hu.core.congr rfl rfl rfl rfl rfl rfl rfl rfl, portFits_of_idle hu.copy hu.commit fun _ _ => hg⟩
  have hself : s.Runs := ⟨hu.core, portFits_of_idle hu.copy hu.commit fun _ _ => .inl hg⟩
  unfold decideJournal
  split
  next hs => exact joinRecord_runs hu hg hreg (hu.core.indexed_none hu.copy hreg (.inl hs)) (.inl hs) hquota
  next hs =>
    split
    next =>
      split
      next => exact commitAttempt_runs hu hs
      next => exact hstays (.inr rfl)
    next hm =>
      exact joinRecord_runs hu hg hreg (hu.core.indexed_none hu.copy hreg (.inr ⟨hs, Bool.eq_false_iff.mpr hm⟩)) (.inr hs) hquota
  next => exact dropWrite_runs hu.core hu.copy hu.commit _
  next => exact dropWrite_runs hu.core hu.copy hu.commit _
  next => exact dropWrite_runs hu.core hu.copy hu.commit _
  next => exact hself
  next => exact hself

end Sys2Proof.Machine
end

section
/-! Cycles taken for decision keep the working state and the Port fitting (R36, R63 to R65, R68, R70, R76 to R84). -/

namespace Sys2Proof.Machine

/-! ### STRAY and blocked writes -/

/-- The Port holds no write in decision, and neither copy nor commit runs. -/
structure State.Apart (s : State) : Prop where
  hit : s.journalHit = none
  copy : s.copy = none
  commit : s.commit = none

theorem State.Apart.portFits {s : State} (h : s.Apart) : s.PortFits :=
  portFits_of_idle h.copy h.commit fun k hk => by rw [h.hit] at hk; cases hk

theorem State.Apart.runs {s : State} (h : s.Apart) (hcore : s.CoreFits) : s.Runs := ⟨hcore, h.portFits⟩

theorem State.Apart.congr {s t : State} (h : s.Apart) (hport : t.port = s.port) (hcopy : t.copy = s.copy)
    (hcommit : t.commit = s.commit) : t.Apart :=
  ⟨(journalHit_congr hport).trans h.hit, hcopy.trans h.copy, hcommit.trans h.commit⟩

theorem beginRestore_port (d : Fin 4) (s : State) :
    (beginRestore d s).port = s.port ∧ (beginRestore d s).copy = s.copy ∧ (beginRestore d s).commit = s.commit := by
  unfold beginRestore
  dsimp only
  split
  next => exact ⟨rfl, rfl, rfl⟩
  next st hst =>
    split
    next => exact ⟨rfl, rfl, rfl⟩
    next =>
      split
      next =>
        unfold endRollback
        dsimp only
        rw [hst]
        dsimp only
        rw [record_eq]
        exact ⟨rfl, rfl, rfl⟩
      next => split <;> exact ⟨rfl, rfl, rfl⟩

theorem strayDomain_fits {s : State} (h : s.CoreFits) (ha : s.Apart) (d : Fin 4) :
    (strayDomain d s).CoreFits ∧ (strayDomain d s).Apart := by
  unfold strayDomain
  split
  next hs =>
    obtain ⟨hport, hcopy, hcommit⟩ := beginRestore_port d (startRollback d .stray s)
    have honly := startRollback_only s d .stray
    exact ⟨beginRestore_coreFits (startRollback_coreFits h (.inr hs.2)) d,
      ha.congr (hport.trans (by rw [honly])) (hcopy.trans (by rw [honly])) (hcommit.trans (by rw [honly]))⟩
  next => exact ⟨h, ha⟩

theorem stray_fits {s : State} (h : s.CoreFits) (ha : s.Apart) : (stray s).CoreFits ∧ (stray s).Apart := by
  obtain ⟨h0, ha0⟩ := strayDomain_fits h ha 0
  obtain ⟨h1, ha1⟩ := strayDomain_fits h0 ha0 1
  obtain ⟨h2, ha2⟩ := strayDomain_fits h1 ha1 2
  exact strayDomain_fits h2 ha2 3

/-- A write is blocked (R77, R82). -/
theorem blockWrite_runs {s : State} (h : s.CoreFits) (hcopy : s.copy = none) (hcommit : s.commit = none) (r : Reason) (b : Bool) :
    (blockWrite r b s).Runs := by
  have hset : (setDisp (.block r) s).CoreFits := h.congr rfl rfl rfl rfl rfl rfl rfl rfl
  have hcore : (reportWrite r (setDisp (.block r) s)).CoreFits := record_coreFits hset _
  have hblocked : (setDisp (.block r) s).Apart := {
    hit := if_neg fun hh => by
      have hdisp : some (Disposition.block r) = some .journal := hh.2
      cases hdisp
    copy := hcopy
    commit := hcommit }
  have hapart : (reportWrite r (setDisp (.block r) s)).Apart := by
    unfold reportWrite
    exact hblocked.congr (by rw [record_eq]) (by rw [record_eq]) (by rw [record_eq])
  unfold blockWrite
  dsimp only
  split
  next =>
    obtain ⟨hs, ha⟩ := stray_fits hcore hapart
    exact closePort_runs hs ha.copy ha.commit
  next => exact closePort_runs hcore hapart.copy hapart.commit

/-! ### Taking an access -/

theorem classify_domain {s : State} {a : Addr} {h : Hit} (hc : classify s a = .hit h) :
    (s.layout.regions[h.region]).domain = h.domain := by
  unfold classify at hc
  split at hc
  next => cases hc
  next =>
    split at hc
    next => cases hc; rfl
    next => cases hc

/-- An access is passed to the memory (R64). -/
theorem passAccess_runs {s : State} (h : s.CoreFits) (hcopy : s.copy = none) (hcommit : s.commit = none) (d : Disposition) :
    (passAccess d s).Runs :=
  ⟨h.congr rfl rfl rfl rfl rfl rfl rfl rfl, portFits_of_idle hcopy hcommit fun k hk => by
    rw [journalHit_none (s := passAccess d s) PortState.noConfusion] at hk
    cases hk⟩

/-- A write is disposed of (R77, R81, R84). -/
theorem takeWrite_runs {s : State} (h : s.CoreFits) (hcopy : s.copy = none) (hcommit : s.commit = none)
    (hl : s.LayoutsInRange) {cls : Classification} (hcls : s.port.cls = some cls)
    (hdom : ∀ k, cls = .hit k → (s.layout.regions[k.region]).domain = k.domain) : (takeWrite cls s).Runs := by
  unfold takeWrite
  split
  next =>
    split
    next => exact passAccess_runs h hcopy hcommit _
    next => exact blockWrite_runs h hcopy hcommit _ _
    next k =>
      split
      next => exact blockWrite_runs h hcopy hcommit _ _
      next =>
        split
        next => exact blockWrite_runs h hcopy hcommit _ _
        next =>
          refine decideJournal_runs ⟨h.congr rfl rfl rfl rfl rfl rfl rfl rfl, ?_, hcopy, hcommit⟩ rfl (hdom k rfl) ?_
          · exact journalHit_eq_some_iff.mpr ⟨rfl, rfl, hcls⟩
          · obtain ⟨⟨-, hquota⟩, -⟩ := hl
            exact (hquota k.domain).1
  next =>
    split
    next => exact blockWrite_runs h hcopy hcommit _ _
    next => exact passAccess_runs h hcopy hcommit _
  next => exact passAccess_runs h hcopy hcommit _

/-- An access is taken for decision (R64, R76). -/
theorem takeAccess_runs {s : State} (h : s.CoreFits) (hcopy : s.copy = none) (hcommit : s.commit = none) (hl : s.LayoutsInRange) :
    (takeAccess s).Runs := by
  have hclassified : ({ s with port := { s.port with cls := some (classify s s.port.cycle.addr) } } : State).CoreFits :=
    h.congr rfl rfl rfl rfl rfl rfl rfl rfl
  unfold takeAccess
  dsimp only
  split
  next =>
    split
    next => exact closePort_runs (s := setDisp .noEffect _) (hclassified.congr rfl rfl rfl rfl rfl rfl rfl rfl) hcopy hcommit
    next => exact takeWrite_runs hclassified hcopy hcommit hl rfl fun k hk => classify_domain hk
  next => exact passAccess_runs hclassified hcopy hcommit _

end Sys2Proof.Machine
end

section
/-! The end of a step keeps the part fitting together: LOAD begun, a claim granted, a waiting cycle arrived (R65, R68, R107, R120). -/

namespace Sys2Proof.Machine

/-- The working state fits together, and so does what the modes add. -/
structure State.Fits (s : State) : Prop where
  core : s.CoreFits
  modes : s.ModeFits

theorem State.Fits.runs {s : State} (h : s.Fits) (hf : s.mode ≠ .frozen) : s.Runs := ⟨h.core, h.modes.port hf⟩

/-- A mode in which the part works: neither STARTING, INSTALLING nor FROZEN. -/
def Mode.Works (m : Mode) : Prop := m = .guarding ∨ m = .bypass ∨ m = .unconfigured

theorem Mode.works_or (m : Mode) : m.Works ∨ m = .installing ∨ m = .starting ∨ m = .frozen := by
  cases m with
  | starting => exact .inr (.inr (.inl rfl))
  | unconfigured => exact .inl (.inr (.inr rfl))
  | guarding => exact .inl (.inl rfl)
  | bypass => exact .inl (.inr (.inl rfl))
  | installing => exact .inr (.inl rfl)
  | frozen => exact .inr (.inr (.inr rfl))

theorem Mode.Works.ne {m : Mode} (h : m.Works) : m ≠ .frozen ∧ m ≠ .installing ∧ m ≠ .starting := by
  obtain rfl | rfl | rfl := h <;> exact ⟨Mode.noConfusion, Mode.noConfusion, Mode.noConfusion⟩

theorem State.Runs.fits {s : State} (h : s.Runs) (hm : s.mode.Works) : s.Fits where
  core := h.core
  modes := {
    port := fun _ => h.port
    frozen := fun hf => absurd hf hm.ne.1
    quiet := fun hi => absurd hi hm.ne.2.1
    starting := fun hs => absurd hs hm.ne.2.2 }

/-! ### What does not touch the working state -/

/-- The mode, the layout and the working state are the same. -/
structure SameWork (s t : State) : Prop where
  mode : t.mode = s.mode
  pool : t.pool = s.pool
  domains : t.domains = s.domains
  free : t.freeQueue = s.freeQueue
  retire : t.retireQueue = s.retireQueue
  index : t.slotIndex = s.slotIndex
  copy : t.copy = s.copy
  commit : t.commit = s.commit
  layout : t.layout = s.layout

theorem SameWork.coreFits {s t : State} (h : SameWork s t) (hs : s.CoreFits) : t.CoreFits :=
  hs.congr h.pool h.domains h.free h.retire h.index h.copy h.commit h.layout

theorem SameWork.quiet {s t : State} (h : SameWork s t) : t.quiet = s.quiet := by
  unfold State.quiet State.dom
  rw [h.pool, h.domains]

theorem RecoveryFits.congr {s t : State} (h : s.RecoveryFits) (hr : t.recovery = s.recovery) (hl : t.layout = s.layout) :
    t.RecoveryFits := by
  have hcfg : t.cfg = s.cfg := by funext d; rw [State.cfg, State.cfg, hl]
  have hitem : t.ItemFits = s.ItemFits := by
    funext it
    rw [State.ItemFits, State.ItemFits, hcfg, hl]
  obtain ⟨h1, h2, h3, h4, h5⟩ := h
  refine ⟨?_, ?_, ?_, ?_, ?_⟩
  all_goals
    simp only [hr, hl, hitem, hcfg]
    assumption

/-- A step that touches neither the working state nor, in STARTING, the fitting of the recovery record. -/
theorem State.Fits.same {s t : State} (hs : s.Fits) (h : SameWork s t) (hport : s.PortFits → t.mode ≠ .frozen → t.PortFits)
    (hhit : t.journalHit = none ∨ t.journalHit = s.journalHit) (hrec : s.mode = .starting → s.RecoveryFits → t.RecoveryFits) :
    t.Fits where
  core := h.coreFits hs.core
  modes := by
    have hnone : s.journalHit = none → t.journalHit = none := fun hn => by
      obtain hh | hh := hhit
      · exact hh
      · exact hh.trans hn
    have hm := h.mode
    refine ⟨fun hf => hport (hs.modes.port (by rw [← hm]; exact hf)) hf, fun hf => ?_, fun hi => ?_, fun hst => ?_⟩
    · rw [hm] at hf
      exact hnone (hs.modes.frozen hf)
    · rw [hm] at hi
      exact h.quiet.trans (hs.modes.quiet hi)
    · rw [hm] at hst
      obtain ⟨hp, hc, hj, hd, hr⟩ := hs.modes.starting hst
      refine ⟨h.pool.trans hp, h.commit.trans hc, hnone hj, fun d => ?_, hrec hst hr⟩
      rw [State.dom, h.domains]
      exact hd d

/-- A step that touches neither the working state, the recovery record nor the Port. -/
theorem State.Fits.same_port {s t : State} (hs : s.Fits) (h : SameWork s t) (hport : t.port = s.port) (hrec : t.recovery = s.recovery) :
    t.Fits := by
  refine hs.same h (fun hp _ => ?_) (.inr (journalHit_congr hport)) fun _ hr => RecoveryFits.congr hr hrec h.layout
  have hslot : t.slot = s.slot := by funext i; rw [State.slot, State.slot, h.pool]
  have hdom : t.dom = s.dom := by funext d; rw [State.dom, State.dom, h.domains]
  refine hp.congr hport h.copy h.commit h.layout h.index (fun j => by rw [hslot]) (fun hc => ?_) fun k _ => .inl ?_
  · unfold State.slotComing at hc ⊢
    rw [h.pool]
    exact hc
  · rw [hdom]
    exact ⟨rfl, rfl⟩

/-- A Port that is apart. -/
theorem State.Fits.same_apart {s t : State} (hs : s.Fits) (h : SameWork s t) (hhit : t.journalHit = none)
    (hidle : s.mode ≠ .frozen → s.copy = none ∧ s.commit = none) (hrec : t.recovery = s.recovery) : t.Fits := by
  refine hs.same h (fun _ hf => ?_) (.inl hhit) fun _ hr => RecoveryFits.congr hr hrec h.layout
  obtain ⟨hcopy, hcommit⟩ := hidle (by rw [← h.mode]; exact hf)
  exact State.Apart.portFits ⟨hhit, h.copy.trans hcopy, h.commit.trans hcommit⟩

/-! ### A cycle arrives -/

/-- A Port not in decision serves no stream. -/
theorem State.PortFits.idle_of_state {s : State} (h : s.PortFits) (hst : s.port.state ≠ .deciding) :
    s.copy = none ∧ s.commit = none := h.idle (fun hd => absurd hd hst) fun hd => absurd hd hst

theorem arrive_fits {s : State} (h : s.Fits) (hl : s.LayoutsInRange) (c : BusCycle) (hv : s.port.state = .vacant) :
    (arrive c s).Fits := by
  have hidle : s.mode ≠ .frozen → s.copy = none ∧ s.commit = none := fun hf =>
    (h.modes.port hf).idle_of_state (by rw [hv]; exact PortState.noConfusion)
  have hmode := (arrive_frame s c).mode
  unfold arrive at hmode ⊢
  dsimp only at hmode ⊢
  split
  next => exact h.same_apart ⟨rfl, rfl, rfl, rfl, rfl, rfl, rfl, rfl, rfl⟩ (journalHit_none PortState.noConfusion) hidle rfl
  next hholds =>
    rw [if_neg hholds] at hmode
    obtain hw | hi | hs | hf := s.mode.works_or
    · obtain ⟨hcopy, hcommit⟩ := hidle hw.ne.1
      refine State.Runs.fits (takeAccess_runs (h.core.congr rfl rfl rfl rfl rfl rfl rfl rfl) hcopy hcommit hl) ?_
      rw [hmode]
      exact hw
    · have hread : c.write = false := by
        rw [hi] at hholds
        exact Bool.eq_false_iff.mpr hholds
      unfold takeAccess
      dsimp only
      rw [if_neg (by rw [hread]; exact Bool.noConfusion)]
      exact h.same_apart ⟨rfl, rfl, rfl, rfl, rfl, rfl, rfl, rfl, rfl⟩ (journalHit_none PortState.noConfusion) hidle rfl
    · rw [hs] at hholds
      exact absurd rfl hholds
    · rw [hf] at hholds
      exact absurd rfl hholds

/-- A mode hold ends (R68, R70). -/
theorem endHold_runs {s : State} (h : s.CoreFits) (ha : s.Apart) (hl : s.LayoutsInRange) : (endHold s).Runs := by
  unfold endHold
  split
  next =>
    split
    next => exact ha.runs h
    next => exact takeAccess_runs h ha.copy ha.commit hl
  next =>
    split
    next => exact closePort_runs h ha.copy ha.commit
    next => exact ha.runs h
  next => exact ha.runs h

/-! ### The end of a step -/

theorem loadBegin_fits {s : State} (h : s.Fits) : (loadBegin s).Fits := by
  unfold loadBegin
  split
  next hl =>
    have hp : s.recovery.pos = .idle := by
      simp only [State.loadReady, Bool.and_eq_true, decide_eq_true_eq] at hl
      exact hl.1.1.2
    refine h.same ⟨rfl, rfl, rfl, rfl, rfl, rfl, rfl, rfl, rfl⟩ (fun hport _ => ?_) (.inr rfl) fun _ hr => ?_
    · exact hport.congr rfl rfl rfl rfl rfl (fun _ => rfl) id fun _ _ => .inl ⟨rfl, rfl⟩
    · obtain ⟨h1, h2, h3, h4, h5⟩ := hr
      rw [hp] at h5
      have hunsettled : ({ s.recovery with pos := .copies [] } : Recovery).unsettled = s.recovery.unsettled := by
        unfold Recovery.unsettled
        rw [hp]
      exact ⟨hunsettled ▸ h1, hunsettled ▸ h2, hunsettled ▸ h3, h4, h5⟩
  next => exact h

theorem Granted.fits {s t : State} (hg : Granted s t) (h : s.Fits) : t.Fits := by
  rw [hg.only]
  exact h.same_port ⟨rfl, rfl, rfl, rfl, rfl, rfl, rfl, rfl, rfl⟩ rfl rfl

theorem settleStep_fits {s : State} (h : s.Fits) (hl : s.LayoutsInRange) (b : Bool) : (settleStep b s).Fits := by
  have hbegun := loadBegin_fits h
  have hgranted := arbitrate_granted b (loadBegin s)
  have h1 : (arbitrate b (loadBegin s)).Fits := hgranted.fits hbegun
  have hl1 : (arbitrate b (loadBegin s)).LayoutsInRange := by
    have hf := (loadBegin_frame s).trans _ _ _ hgranted.settleFrame
    exact hl.congr hf.layout hf.staging (by rw [arbitrate_recovery, loadBegin_chosen])
  unfold settleStep
  dsimp only
  split
  next hv _ => exact (arbitrate_granted _ _).fits (arrive_fits h1 hl1 _ hv)
  next => exact h1

end Sys2Proof.Machine
end

section
/-! The host's, the copy stream's and the commit stream's words keep the working state and the Port fitting (R25, R26, R30, R34,
R57, R90, R96, R100). -/

namespace Sys2Proof.Machine

/-! ### The host's word -/

/-- The commit stream begins for a held commit attempt (R30). -/
theorem commitBegins_runs {s : State} (h : s.Runs) {k : Hit} (hst : s.port.state = .deciding) (hg : s.port.stage = .commitStore)
    (hk : s.journalHit = some k) :
    (setStage .epochWrite { s with commit := some { domain := k.domain, back := false } }).Runs := by
  obtain ⟨hcopy, -⟩ := h.port.idle (fun _ => by rw [hg]; exact WriteStage.noConfusion)
    fun _ => by rw [hg]; exact WriteStage.noConfusion
  obtain ⟨-, -, -, hcommitting⟩ := h.port.held k hk
  refine ⟨⟨?_, h.core.domains, fun c hc => ?_, fun _ => hcopy⟩, fun hc => absurd hcopy hc, fun _ => ⟨hst, rfl⟩, fun _ _ => ?_⟩
  · exact h.core.pool.of_held (fun _ => ⟨rfl, rfl, rfl, .inl rfl⟩) rfl rfl rfl rfl (fun _ => rfl) h.core.pool.copy
  · cases hc
    exact hcommitting hg
  · exact ⟨fun hg => WriteStage.noConfusion hg, fun hg => WriteStage.noConfusion hg, fun hg => WriteStage.noConfusion hg,
      fun hg => WriteStage.noConfusion hg⟩

/-- What the host's word does: the Port closes, or the commit stream begins, or nothing. -/
theorem hostTakes_cases (s : State) (data : Word) :
    hostTakes data s = s
    ∨ (∃ p m, hostTakes data s = closePort { s with port := p, memPort := m } ∧ (s.port.state = .deciding → s.port.stage = .store))
    ∨ ∃ k, s.port.state = .deciding ∧ s.port.stage = .commitStore ∧ s.journalHit = some k
      ∧ hostTakes data s = setStage .epochWrite { s with commit := some { domain := k.domain, back := false } } := by
  unfold hostTakes
  split
  next hst =>
    refine .inr (.inl ?_)
    split
    next => exact ⟨s.port, s.memPort, rfl, fun hd => by rw [hst] at hd; cases hd⟩
    next => exact ⟨_, s.memPort, rfl, fun hd => by rw [hst] at hd; cases hd⟩
  next hst =>
    split
    next hg => exact .inr (.inl ⟨_, s.memPort, rfl, fun _ => hg⟩)
    next k hg hk => exact .inr (.inr ⟨k, hst, hg, hk, rfl⟩)
    next => exact .inl rfl
  next => exact .inl rfl

theorem committing_not_quiet {s : State} {d : Fin 4} (h : (s.dom d).state = .committing) : s.quiet ≠ true := by
  intro hq
  unfold State.quiet at hq
  rw [Bool.and_eq_true, List.all_eq_true] at hq
  have hd := hq.1 d (mem_domainIndices d)
  rw [h] at hd
  cases hd

theorem hostTakes_fits {s : State} (h : s.Fits) (data : Word) : (hostTakes data s).Fits := by
  obtain he | ⟨p, m, he, hstage⟩ | ⟨k, hst, hg, hk, he⟩ := hostTakes_cases s data
  · rw [he]
    exact h
  · rw [he]
    refine h.same_apart ⟨rfl, rfl, rfl, rfl, rfl, rfl, rfl, rfl, rfl⟩ (journalHit_closePort _) (fun hf => ?_) rfl
    exact (h.modes.port hf).idle (fun hd => by rw [hstage hd]; exact WriteStage.noConfusion)
      fun hd => by rw [hstage hd]; exact WriteStage.noConfusion
  · obtain hw | hi | hs | hf := s.mode.works_or
    · rw [he]
      exact (commitBegins_runs (h.runs hw.ne.1) hst hg hk).fits hw
    · obtain ⟨-, -, -, hcommitting⟩ := (h.modes.port (by rw [hi]; exact Mode.noConfusion)).held k hk
      exact absurd (h.modes.quiet hi) (committing_not_quiet (hcommitting hg))
    · obtain ⟨-, -, hnone, -⟩ := h.modes.starting hs
      rw [hnone] at hk
      cases hk
    · rw [h.modes.frozen hf] at hk
      cases hk

/-! ### The copy stream -/

/-- The copy stream stays with its slot. -/
theorem copyNext_slot {s : State} {c c' : CopyStream} {data : Word} (h : copyNext s c data = .more c') : c'.slot = c.slot := by
  have hadvance : ∀ n, copyAdvance n c = .more c' → c'.slot = c.slot := by
    intro n ha
    unfold copyAdvance at ha
    split at ha <;> cases ha <;> rfl
  unfold copyNext at h
  split at h
  next =>
    split at h
    next => cases h
    next =>
      cases h
      rfl
  next =>
    split at h
    next =>
      split at h
      next => exact hadvance _ h
      next => cases h
    next =>
      split at h
      next =>
        cases h
        rfl
      next => exact hadvance _ h

/-- The copy stream goes on with its slot. -/
theorem copyMoves_coreFits {s : State} (h : s.CoreFits) {c c' : CopyStream} (hc : s.copy = some c) (hs : c'.slot = c.slot) :
    ({ s with copy := some c' } : State).CoreFits where
  pool := h.pool.of_held (fun _ => ⟨rfl, rfl, rfl, .inl rfl⟩) rfl rfl rfl rfl (fun _ => rfl) fun k hk => by
    cases hk
    rw [hs]
    exact h.pool.copy c hc
  domains d := by
    have hd := h.domains d
    rw [hc, Option.map_some, ← hs] at hd
    exact hd
  commit := h.commit
  alone hcommit := by
    have hnone := h.alone hcommit
    rw [hc] at hnone
    cases hnone

theorem copyMoves_runs {s : State} (h : s.Runs) {c c' : CopyStream} (hc : s.copy = some c) (hs : c'.slot = c.slot) :
    ({ s with copy := some c' } : State).Runs where
  core := copyMoves_coreFits h.core hc hs
  port := {
    copy := fun _ => h.port.copy (by rw [hc]; exact Option.some_ne_none c)
    commit := h.port.commit
    held := fun k hk => by
      obtain ⟨hsl, hcp, hb, hcs⟩ := h.port.held k hk
      refine ⟨hsl, fun hg => ?_, hb, hcs⟩
      obtain ⟨c0, hc0, hd⟩ := hcp hg
      obtain rfl := Option.some.inj (hc.symm.trans hc0)
      exact ⟨c', rfl, by rw [hs]; exact hd⟩ }

/-- The only COPYING slot is the copy stream's. -/
theorem State.CoreFits.copying_slot {s : State} (h : s.CoreFits) {c : CopyStream} (hc : s.copy = some c) {d : Fin 4} {j : Nat}
    (hj : s.owns d j = some .copying) : j = c.slot := by
  have hcopy := ((h.domains d).copying j hj).1
  rw [hc] at hcopy
  exact (Option.some.inj hcopy).symm

theorem State.CoreFits.noCommit {s : State} (h : s.CoreFits) {c : CopyStream} (hc : s.copy = some c) : s.commit = none := by
  by_contra hcommit
  have hnone := h.alone hcommit
  rw [hc] at hnone
  cases hnone

/-- The copy stream's slot, COPYING, in its OPEN or ROLLING domain. -/
theorem State.CoreFits.copySlot {s : State} (h : s.CoreFits) {c : CopyStream} (hc : s.copy = some c) :
    s.owns (s.slot c.slot).domain c.slot = some .copying
      ∧ ((s.dom (s.slot c.slot).domain).state = .opened ∨ (s.dom (s.slot c.slot).domain).state = .rolling) := by
  have howns := owns_eq_some_iff.mpr ⟨rfl, h.pool.copy c hc, rfl⟩
  exact ⟨howns, ((h.domains _).copying c.slot howns).2.imp And.left And.left⟩

/-- The copy's slot stands ACTIVE or RESTORING (R25, R90). -/
theorem copied_coreFits {s : State} (h : s.CoreFits) {c : CopyStream} (hc : s.copy = some c) {x : SlotState}
    (hs : (s.dom (s.slot c.slot).domain).state = .opened ∧ x = .active
      ∨ (s.dom (s.slot c.slot).domain).state = .rolling ∧ x = .restoring) : (s.copied c.slot x).CoreFits := by
  obtain ⟨howns, -⟩ := h.copySlot hc
  have hcopying := h.pool.copy c hc
  have hx : x.holdsRecord = true := by obtain ⟨-, rfl⟩ | ⟨-, rfl⟩ := hs <;> rfl
  have hchanged : s.Changed (s.copied c.slot x) c.slot { s.slot c.slot with state := x } :=
    changed_of_set (by rw [hcopying]; exact SlotState.noConfusion) rfl
  have hcommit := h.noCommit hc
  refine h.of_domain (d := (s.slot c.slot).domain) ?_ rfl (fun e he => ⟨?_, rfl⟩) ?_
    (.inr fun e he j hj => ?_) (fun k hk => ?_) (fun hk => absurd hcommit hk)
  · refine h.pool.of_held (fun j => ?_) rfl rfl rfl rfl (fun _ => rfl) fun k hk => by cases hk
    rw [hchanged j]
    split
    next hj =>
      subst hj
      exact ⟨rfl, rfl, rfl, .inr ⟨by rw [hcopying]; rfl, hx⟩⟩
    next => exact ⟨rfl, rfl, rfl, .inl rfl⟩
  · exact owns_changed_other hchanged (fun _ => Ne.symm he) fun _ => Ne.symm he
  · rw [owns_changed hchanged, if_pos ⟨hx, rfl⟩]
    exact (h.domains _).copied howns hs
  · obtain rfl := h.copying_slot hc hj
    exact he (owns_eq_some_iff.mp hj).2.2.symm
  · have hk' : s.commit = some k := hk
    rw [hcommit] at hk'
    cases hk'

/-- The copy's slot has left its domain and the Slot Index (R26, R96). -/
theorem uncopied_coreFits {s : State} (h : s.CoreFits) {c : CopyStream} (hc : s.copy = some c) {e : PoolEntry} {r : Runtime}
    {free : List Nat} {events : List EventRec}
    (he : e.state = .free ∧ free = c.slot :: s.freeQueue ∨ e.state = .bad ∧ free = s.freeQueue)
    (hr : DomainFits (withSlot (s.owns (s.slot c.slot).domain) c.slot none) none (s.cfg (s.slot c.slot).domain).quota r)
    (hb : r.backlog = (s.dom (s.slot c.slot).domain).backlog) :
    (s.uncopied c.slot e (s.slot c.slot).domain r free events).CoreFits := by
  obtain ⟨howns, -⟩ := h.copySlot hc
  have hcopying := h.pool.copy c hc
  have hchanged : s.Changed (s.uncopied c.slot e (s.slot c.slot).domain r free events) c.slot e :=
    changed_of_set (by rw [hcopying]; exact SlotState.noConfusion) rfl
  have heh : ¬ e.state.holdsRecord = true := by
    rw [holds_of_free_or_bad (he.imp And.left And.left)]
    exact Bool.noConfusion
  have hcommit := h.noCommit hc
  have hdom : ∀ x, (s.uncopied c.slot e (s.slot c.slot).domain r free events).dom x =
      if (s.slot c.slot).domain = x then r else s.dom x := fun x => getElem_set_domain
  have hfree : free.Nodup ∧ ∀ j, j ∈ free ↔ j ∈ s.freeQueue ∨ j = c.slot ∧ e.state = .free := by
    obtain ⟨hs, rfl⟩ | ⟨hs, rfl⟩ := he
    · refine ⟨List.nodup_cons.mpr ⟨fun hm => ?_, h.pool.free.1⟩, fun j => ?_⟩
      · rw [h.pool.free.2, hcopying] at hm
        cases hm
      · rw [List.mem_cons]
        exact ⟨fun hj => hj.elim (fun hj => .inr ⟨hj, hs⟩) .inl, fun hj => hj.elim .inr fun hj => .inl hj.1⟩
    · exact ⟨h.pool.free.1, fun j => ⟨.inl, fun hj => hj.elim id fun hj => by rw [hs] at hj; cases hj.2⟩⟩
  refine h.of_domain (d := (s.slot c.slot).domain) ?_ rfl (fun x hx => ⟨?_, ?_⟩) ?_
    (.inr fun x hx j hj => ?_) (fun k hk => ?_) (fun hk => absurd hcommit hk)
  · refine h.pool.leaves (by rw [hcopying]; rfl) hchanged (he.imp And.left And.left) hfree rfl rfl rfl (fun x => ?_) fun k hk => by cases hk
    rw [hdom]
    split
    next hx => rw [← hx, hb]
    next => rfl
  · exact owns_changed_other hchanged (fun _ => Ne.symm hx) fun hh => absurd hh heh
  · rw [hdom, if_neg (Ne.symm hx)]
  · rw [owns_changed hchanged, if_neg fun hh => heh hh.1, hdom, if_pos rfl]
    exact hr
  · obtain rfl := h.copying_slot hc hj
    exact hx (owns_eq_some_iff.mp hj).2.2.symm
  · have hk' : s.commit = some k := hk
    rw [hcommit] at hk'
    cases hk'

/-- A rollback goes on once its copy has ended, the held write dropped (R34, R86). -/
theorem rollback_runs {s : State} (h : s.CoreFits) (hcopy : s.copy = none) (hcommit : s.commit = none) (d : Fin 4) :
    (beginRestore d (dropHeld d (setStage .none s))).Runs := by
  have hset : (setStage .none s).CoreFits := h.congr rfl rfl rfl rfl rfl rfl rfl rfl
  have hdropped : (dropHeld d (setStage .none s)).Runs := by
    obtain he | he := dropHeld_cases d (setStage .none s) <;> rw [he]
    · exact ⟨hset, portFits_of_idle hcopy hcommit fun _ _ => .inl rfl⟩
    · exact dropWrite_runs hset hcopy hcommit _
  exact ⟨beginRestore_coreFits hdropped.core d, beginRestore_portFits hdropped.core hdropped.port d⟩

/-- The copy completes (R25, R34, R90). -/
theorem copyDone_runs {s : State} (h : s.Runs) {c : CopyStream} (hc : s.copy = some c) : (copyDone c s).Runs := by
  have hcommit := h.core.noCommit hc
  obtain ⟨-, hs | hs⟩ := h.core.copySlot hc
  · have hcopied := copied_coreFits h.core hc (.inl ⟨hs, rfl⟩)
    have hidle : ∀ g, g = .none ∨ g = .store → (setStage g (s.copied c.slot .active)).Runs := fun g hg =>
      ⟨hcopied.congr rfl rfl rfl rfl rfl rfl rfl rfl, portFits_of_idle rfl hcommit fun _ _ => hg⟩
    unfold copyDone
    dsimp only
    rw [hs]
    dsimp only
    split
    next k hk =>
      have hhit : s.journalHit = some k := hk
      obtain ⟨-, hcp, -⟩ := h.port.held k hhit
      obtain ⟨c', hc', hd⟩ := hcp (h.port.copy (by rw [hc]; exact Option.some_ne_none c)).2
      obtain rfl := Option.some.inj (hc.symm.trans hc')
      split
      next => exact commitAttempt_runs (s := s.copied c.slot .active) ⟨hcopied, hhit, rfl, hcommit⟩ (by rw [← hd]; exact hs)
      next => exact hidle .store (.inr rfl)
    next hk => exact State.Apart.runs (s := s.copied c.slot .active) ⟨hk, rfl, hcommit⟩ hcopied
  · rw [copyDone_rolls rfl hs]
    exact rollback_runs (copied_coreFits h.core hc (.inr ⟨hs, rfl⟩)) rfl hcommit _

/-- A ONCE record is not blank (R26, R90). -/
theorem copyNotBlank_runs {s : State} (h : s.Runs) {c : CopyStream} (hc : s.copy = some c) : (copyNotBlank c s).Runs := by
  have hcommit := h.core.noCommit hc
  obtain ⟨howns, hs | hs⟩ := h.core.copySlot hc
  · rw [copyNotBlank_opened rfl hs]
    have hfits := (h.core.domains _).uncopied hs howns
      (t := if (s.dom (s.slot c.slot).domain).members.erase c.slot = [] then 0 else (s.dom (s.slot c.slot).domain).timer)
      (x := if (s.dom (s.slot c.slot).domain).members.erase c.slot = [] then .idle else .opened) (by
        split
        next hnil => exact .inr ⟨rfl, hnil⟩
        next => exact .inl rfl)
    exact blockWrite_runs (uncopied_coreFits h.core hc (.inl ⟨rfl, rfl⟩) hfits (by rfl)) (by rfl) (by exact hcommit) _ _
  · rw [copyNotBlank_rolls rfl hs]
    have hfits := (h.core.domains _).uncopiedRolling hs howns
    exact rollback_runs (uncopied_coreFits h.core hc (.inl ⟨rfl, rfl⟩) hfits (by rfl)) (by rfl) (by exact hcommit) _

/-- A media fault in a copy (R90, R96). -/
theorem copyFault_runs {s : State} (h : s.Runs) {c : CopyStream} (hc : s.copy = some c) (a : Addr) : (copyFault c a s).Runs := by
  have hcommit := h.core.noCommit hc
  obtain ⟨howns, hs | hs⟩ := h.core.copySlot hc
  · rw [copyFault_opened rfl hs]
    have hfits : DomainFits (withSlot (s.owns (s.slot c.slot).domain) c.slot none) none (s.cfg (s.slot c.slot).domain).quota
        { s.dom (s.slot c.slot).domain with members := (s.dom (s.slot c.slot).domain).members.erase c.slot } :=
      ((h.core.domains _).uncopied (t := 0) hs howns (.inl rfl)).congr hs rfl rfl rfl fun hx => by cases hx
    have hcore := uncopied_coreFits (e := .badEntry) (events := (record (.mediaFault .copy (some c.slot) a) s).events)
      h.core hc (.inr ⟨rfl, rfl⟩) hfits (by rfl)
    have hdom := uncopied_dom s c.slot .badEntry (s.slot c.slot).domain
      { s.dom (s.slot c.slot).domain with members := (s.dom (s.slot c.slot).domain).members.erase c.slot } s.freeQueue
      (record (.mediaFault .copy (some c.slot) a) s).events
    obtain ⟨hcore, hport⟩ := abortUpdate_fits (s := setStage .none (s.uncopied _ _ _ _ _ _)) (d := (s.slot c.slot).domain)
      (hcore.congr rfl rfl rfl rfl rfl rfl rfl rfl) (portFits_of_idle (by rfl) (by exact hcommit) fun _ _ => .inl rfl) .media
      (.inr ((congrArg Runtime.state hdom).trans hs))
    exact ⟨hcore, hport⟩
  · rw [copyFault_rolls rfl hs]
    have hfits := (h.core.domains _).uncopiedRolling hs howns
    exact rollback_runs (uncopied_coreFits h.core hc (.inr ⟨rfl, rfl⟩) hfits (by rfl)) (by rfl) (by exact hcommit) _

theorem copyTakes_runs {s : State} (h : s.Runs) (data : Word) : (copyTakes data s).Runs := by
  unfold copyTakes
  split
  next => exact h
  next c hc =>
    split
    next c' hn => exact copyMoves_runs h hc (copyNext_slot hn)
    next => exact copyDone_runs h hc
    next => exact copyNotBlank_runs h hc
    next a _ => exact copyFault_runs h hc a

end Sys2Proof.Machine
end

section
/-! The commit and the retire stream's words keep the working state and the Port fitting (R29, R30, R60, R97, R100). -/

namespace Sys2Proof.Machine

/-! ### The commit stream -/

theorem journalHit_of_ended {s t : State} {d : Disposition} (h : t.port = s.port.ended d) : t.journalHit = none := by
  refine journalHit_none fun hst => ?_
  rw [h] at hst
  have hst : (if s.port.early = true then PortState.vacant else .closing) = .deciding := hst
  split at hst <;> cases hst

/-- A COMMITTING domain without a copy has only its ACTIVE members. -/
theorem State.CoreFits.owns_committing {s : State} (h : s.CoreFits) {d : Fin 4} (hs : (s.dom d).state = .committing)
    (hcopy : s.copy = none) {j : Nat} {x : SlotState} (hj : s.owns d j = some x) : x = .active ∧ j ∈ (s.dom d).members := by
  have hd := h.domains d
  obtain ⟨hx, -, -⟩ := owns_eq_some_iff.mp hj
  cases x with
  | active => exact ⟨rfl, (hd.active j hj).2⟩
  | copying => exact absurd hj (h.owns_noCopying hcopy d j)
  | restoring =>
    have hr := (hd.restoring j hj).1
    rw [hs] at hr
    cases hr
  | stranded =>
    have hr := hd.stranded j hj
    rw [hs] at hr
    cases hr
  | free => cases hx
  | retiring => cases hx
  | bad => cases hx

theorem commitDone_runs {s : State} (h : s.CoreFits) {c : CommitStream} (hc : s.commit = some c) :
    (commitDone c.domain s).Runs := by
  have hs := h.commit c hc
  have hcopy := h.alone (by rw [hc]; exact Option.some_ne_none c)
  have hfits := h.domains c.domain
  obtain ⟨hbacklog, hactive⟩ := hfits.committing hs
  have hport : (commitDone c.domain s).Apart :=
    ⟨journalHit_of_ended (s := s) (d := .pass) (by rw [commitDone_eq]), by rw [commitDone_eq]; exact hcopy, by rw [commitDone_eq]⟩
  refine hport.runs ?_
  rw [commitDone_eq]
  generalize ht : ({ s with
    commit := none
    pool := movedPool .active .retiring (s.dom c.domain).members s.pool
    retireQueue := s.retireQueue ++ (s.dom c.domain).members
    slotIndex := s.slotIndex.filter fun x => decide (x.slot ∉ (s.dom c.domain).members)
    domains := s.domains.set c.domain { s.dom c.domain with
      state := .idle, committed := (s.dom c.domain).committed + 1, backlog := (s.dom c.domain).members.length, members := [] }
    events := (record (.committed c.domain ((s.dom c.domain).committed + 1) (s.dom c.domain).members.length) s).events
    port := s.port.ended .pass } : State) = t
  have hmoved : s.Moved t .active .retiring (s.dom c.domain).members :=
    moved_of_movedPool SlotState.noConfusion (by rw [← ht])
  have hdom : ∀ e, t.dom e = if c.domain = e then { s.dom c.domain with
      state := .idle, committed := (s.dom c.domain).committed + 1, backlog := (s.dom c.domain).members.length, members := [] }
      else s.dom e := fun e => by
    rw [← ht]
    exact getElem_set_domain
  have howns : t.owns c.domain = fun _ => none := by
    funext j
    refine owns_eq_none fun hh hd => ?_
    rw [hmoved j] at hh hd
    split at hh
    next => cases hh
    next hj =>
      rw [if_neg hj] at hd
      obtain ⟨hx, hm⟩ := h.owns_committing hs hcopy (owns_eq_some_iff.mpr ⟨hh, rfl, hd⟩)
      exact hj ⟨hm, hx⟩
  refine h.of_domain (d := c.domain) ?_ (by rw [← ht]) (fun e he => ⟨owns_moved_other hmoved fun j hj => ?_, ?_⟩) ?_
    (.inl (by rw [← ht])) (fun k hk => ?_) (fun hk => ?_)
  · refine h.pool.commits hfits.members.1 (fun j hj => ?_) hbacklog hmoved (by rw [← ht]) (by rw [← ht]) (by rw [← ht]) (by rw [← ht])
      (fun e => ?_) (by rw [← ht]; exact fun _ => id)
    · obtain ⟨-, hst, hd⟩ := owns_eq_some_iff.mp (hactive j hj)
      exact ⟨hst, hd⟩
    · rw [hdom]
      split <;> rfl
  · rw [h.member hj]
    exact Ne.symm he
  · rw [hdom, if_neg (Ne.symm he)]
  · rw [howns, hdom, if_pos rfl, show t.copy = s.copy by rw [← ht]]
    exact hfits.committed hs
  · rw [← ht] at hk
    cases hk
  · rw [← ht] at hk
    exact absurd rfl hk

theorem commitFault_runs {s : State} (h : s.CoreFits) {c : CommitStream} (hc : s.commit = some c) :
    (commitFault c.domain s).Runs := by
  have hs := h.commit c hc
  have hcopy := h.alone (by rw [hc]; exact Option.some_ne_none c)
  have hfits := h.domains c.domain
  have hport : (commitFault c.domain s).Apart :=
    ⟨journalHit_of_ended (s := s) (d := .pass) (by rw [commitFault_eq]), by rw [commitFault_eq]; exact hcopy,
      by rw [commitFault_eq]⟩
  refine hport.runs ?_
  generalize ht : commitFault c.domain s = t
  rw [commitFault_eq] at ht
  have hmoved : s.Moved t .active .stranded (s.dom c.domain).members :=
    moved_of_movedPool SlotState.noConfusion (by rw [← ht])
  have hdom : ∀ e, t.dom e = if c.domain = e then { s.dom c.domain with state := .failed, members := [] } else s.dom e :=
    fun e => by
      rw [← ht]
      exact getElem_set_domain
  have howns : t.owns c.domain = withMoved (s.owns c.domain) .active .stranded :=
    owns_moved hmoved rfl rfl fun j hj => (hfits.active j hj).2
  refine h.of_domain (d := c.domain) ?_ (by rw [← ht]) (fun e he => ⟨owns_moved_other hmoved fun j hj => ?_, ?_⟩) ?_
    (.inl (by rw [← ht])) (fun k hk => ?_) (fun hk => ?_)
  · refine h.pool.of_moved hmoved rfl rfl SlotState.noConfusion (by rw [← ht]) (by rw [← ht]) (by rw [← ht]) (by rw [← ht])
      (fun e => ?_) (by rw [← ht]; exact fun _ => id)
    rw [hdom]
    split
    next he => rw [← he]
    next => rfl
  · rw [h.member hj]
    exact Ne.symm he
  · rw [hdom, if_neg (Ne.symm he)]
  · rw [howns, hdom, if_pos rfl, show t.copy = s.copy by rw [← ht]]
    exact hfits.commitFails hs
  · rw [← ht] at hk
    cases hk
  · rw [← ht] at hk
    exact absurd rfl hk

/-- The commit stream stays with its domain. -/
theorem commitMoves_coreFits {s : State} (h : s.CoreFits) {c c' : CommitStream} (hc : s.commit = some c) (hd : c'.domain = c.domain) :
    ({ s with commit := some c' } : State).CoreFits where
  pool := h.pool.of_held (fun _ => ⟨rfl, rfl, rfl, .inl rfl⟩) rfl rfl rfl rfl (fun _ => rfl) h.pool.copy
  domains := h.domains
  commit k hk := by
    cases hk
    rw [hd]
    exact h.commit c hc
  alone _ := h.alone (by rw [hc]; exact Option.some_ne_none c)

theorem commitTakes_runs {s : State} (h : s.Runs) (data : Word) : (commitTakes data s).Runs := by
  unfold commitTakes
  split
  next => exact h
  next c hc =>
    split
    next => split <;> [exact commitDone_runs h.core hc; exact commitFault_runs h.core hc]
    next =>
      split
      next =>
        refine ⟨commitMoves_coreFits h.core hc rfl, h.port.copy, fun _ => h.port.commit ?_, h.port.held⟩
        rw [hc]
        exact Option.some_ne_none c
      next => exact commitDone_runs h.core hc

/-! ### What a freed or lost slot decides again (R24, R29, R60) -/

/-- What the Port's write waits for, apart from a slot to come free, is unchanged from a state in which all of it was there. -/
structure State.WaitsAs (s t : State) : Prop where
  port : t.port = s.port
  copy : t.copy = s.copy
  commit : t.commit = s.commit
  layout : t.layout = s.layout
  indexed : ∀ r n, s.indexed r n = none → t.indexed r n = none
  slot : ∀ c, s.copy = some c → (t.slot c.slot).domain = (s.slot c.slot).domain
  dom : ∀ k, s.journalHit = some k → (t.dom k.domain).state = (s.dom k.domain).state
      ∧ (t.dom k.domain).members = (s.dom k.domain).members
    ∨ s.port.stage ≠ .slot ∧ s.port.stage ≠ .backlog ∧ s.port.stage ≠ .commitStore

theorem State.LayoutsInRange.quota {s : State} (h : s.LayoutsInRange) (d : Fin 4) : 1 ≤ (s.cfg d).quota := by
  obtain ⟨⟨-, hquota⟩, -⟩ := h
  exact (hquota d).1

/-- A write that waits for a slot is decided again (R24). -/
theorem decideSlotAgain_runs {s t : State} (hp : s.PortFits) (ht : t.CoreFits) (hw : s.WaitsAs t) (hl : s.LayoutsInRange) :
    (decideSlotAgain t).Runs := by
  have hhit : t.journalHit = s.journalHit := journalHit_congr hw.port
  have hport : (∀ k, s.journalHit = some k → s.port.stage ≠ .slot) → t.PortFits := fun hno => {
    copy := fun hc => by
      rw [hw.port]
      exact hp.copy (hw.copy ▸ hc)
    commit := fun hc => by
      rw [hw.port]
      exact hp.commit (hw.commit ▸ hc)
    held := fun k hk => by
      rw [hhit] at hk
      obtain ⟨-, hcp, hb, hcs⟩ := hp.held k hk
      unfold State.HeldFits
      rw [hw.port]
      refine ⟨fun hg => absurd hg (hno k hk), fun hg => ?_, fun hg => ?_, fun hg => ?_⟩
      · obtain ⟨c, hc, hd⟩ := hcp hg
        exact ⟨c, hw.copy.trans hc, (hw.slot c hc).trans hd⟩
      · obtain ⟨hst, -⟩ | ⟨-, hne, -⟩ := hw.dom k hk
        · exact hst.trans (hb hg)
        · exact absurd hg hne
      · obtain ⟨hst, -⟩ | ⟨-, -, hne⟩ := hw.dom k hk
        · exact hst.trans (hcs hg)
        · exact absurd hg hne }
  unfold decideSlotAgain
  split
  next hg =>
    rw [hw.port] at hg
    split
    next k hk =>
      rw [hhit] at hk
      obtain ⟨hsl, -⟩ := hp.held k hk
      obtain ⟨hreg, hidx, -, hdom⟩ := hsl hg
      obtain ⟨hcopy, hcommit⟩ := hp.idle (fun _ => by rw [hg]; exact WriteStage.noConfusion)
        fun _ => by rw [hg]; exact WriteStage.noConfusion
      obtain ⟨hst, hm⟩ | ⟨hne, -⟩ := hw.dom k hk
      · have hstate : (t.dom k.domain).state = .idle ∨ (t.dom k.domain).state = .opened := by
          rw [hst]
          exact hdom.imp id And.left
        refine seekSlot_runs ⟨ht, hhit.trans hk, hw.copy.trans hcopy, hw.commit.trans hcommit⟩ (.inr (by rw [hw.port]; exact hg))
          (by simp only [hw.layout]; exact hreg) (hw.indexed _ _ hidx) hstate ?_
        have hquota : (t.dom k.domain).members.length < (s.cfg k.domain).quota := by
          obtain hs | ⟨-, hlt⟩ := hdom
          · rw [(ht.domains k.domain).noMembers (by rw [hst, hs]; exact UpdateState.noConfusion)
              (by rw [hst, hs]; exact UpdateState.noConfusion)]
            exact hl.quota _
          · rw [hm]
            exact hlt
        unfold State.cfg at hquota ⊢
        rw [hw.layout]
        exact hquota
      · exact absurd hg hne
    next hk => exact ⟨ht, hport fun k hk' => by rw [← hhit, hk] at hk'; cases hk'⟩
  next hg => exact ⟨ht, hport fun _ _ => by rw [← hw.port]; exact hg⟩

/-- A commit attempt that waits for backlog is decided again (R29, R60). -/
theorem decideBacklogAgain_runs {s : State} (h : s.Runs) : (decideBacklogAgain s).Runs := by
  unfold decideBacklogAgain
  split
  next hg =>
    split
    next k hk =>
      split
      next hb =>
        obtain ⟨-, -, hopened, -⟩ := h.port.held k hk
        obtain ⟨hcopy, hcommit⟩ := h.port.idle (fun _ => by rw [hg]; exact WriteStage.noConfusion)
          fun _ => by rw [hg]; exact WriteStage.noConfusion
        exact evaluateGuard_runs ⟨h.core, hk, hcopy, hcommit⟩ (hopened hg) hb
      next => exact h
    next => exact h
  next => exact h

/-! ### The retire stream -/

theorem retired_coreFits {s : State} (h : s.CoreFits) {i : Nat} {rest free : List Nat} {e : PoolEntry}
    (hq : s.retireQueue = i :: rest)
    (he : e.state = .free ∧ free = s.freeQueue ++ [i] ∨ e.state = .bad ∧ free = s.freeQueue) :
    ({ s.retired i rest e with freeQueue := free } : State).CoreFits := by
  have hi : (s.slot i).state = .retiring := (h.pool.retire.2 i).mp (by rw [hq]; exact List.mem_cons_self)
  generalize ht : ({ s.retired i rest e with freeQueue := free } : State) = t
  have hchanged : s.Changed t i e := changed_of_set (by rw [hi]; exact SlotState.noConfusion) (by rw [← ht]; rfl)
  have hdom : ∀ x, t.dom x = if (s.slot i).domain = x then
      { s.dom (s.slot i).domain with backlog := (s.dom (s.slot i).domain).backlog - 1 } else s.dom x := fun x => by
    rw [← ht]
    exact getElem_set_domain
  have hsh : ¬ (s.slot i).state.holdsRecord = true := by rw [hi]; exact Bool.noConfusion
  have heh : ¬ e.state.holdsRecord = true := by
    rw [holds_of_free_or_bad (he.imp And.left And.left)]
    exact Bool.noConfusion
  have hfree := h.pool.freeTail (x := e.state) (by rw [hi]; exact SlotState.noConfusion) he
  have howns : ∀ x, t.owns x = s.owns x := fun x =>
    owns_changed_other hchanged (fun hh => absurd hh hsh) fun hh => absurd hh heh
  refine h.of_domain (d := (s.slot i).domain) ?_ (by rw [← ht]; rfl) (fun x hx => ⟨howns x, ?_⟩) ?_ (.inl (by rw [← ht]; rfl))
    (fun k hk => ?_) (by rw [← ht]; exact h.alone)
  · refine h.pool.retired hq hchanged (he.imp And.left And.left) (by rw [← ht]; exact hfree) (by rw [← ht]; rfl) (by rw [← ht]; rfl)
      (by rw [← ht]; rfl) (fun x => ?_) fun c hc => ?_
    · rw [hdom]
      split
      next hx => rw [← hx]
      next => rfl
    · have hcs : s.copy = some c := by rw [← ht] at hc; exact hc
      have hcopying := h.pool.copy c hcs
      rw [hchanged, if_neg fun hci => by rw [hci, hi] at hcopying; cases hcopying]
      exact hcopying
  · rw [hdom, if_neg (Ne.symm hx)]
  · rw [howns, hdom, if_pos rfl, show t.copy = s.copy by rw [← ht]; rfl]
    exact (h.domains _).congr rfl rfl rfl rfl fun hc => by rw [((h.domains _).committing hc).1]
  · have hks : s.commit = some k := by rw [← ht] at hk; exact hk
    by_cases hkd : k.domain = (s.slot i).domain
    · refine .inr ⟨hkd, ?_⟩
      rw [hdom, if_pos rfl]
      exact hkd ▸ h.commit k hks
    · exact .inl ⟨hks, hkd⟩

theorem retired_waitsAs {s : State} (h : s.CoreFits) {i : Nat} {rest free : List Nat} {e : PoolEntry} {events : List EventRec}
    (hq : s.retireQueue = i :: rest) : s.WaitsAs { s.retired i rest e with freeQueue := free, events := events } where
  port := rfl
  copy := rfl
  commit := rfl
  layout := rfl
  indexed _ _ := id
  slot c hc := by
    have hi : (s.slot i).state = .retiring := (h.pool.retire.2 i).mp (by rw [hq]; exact List.mem_cons_self)
    have hcopying := h.pool.copy c hc
    have hset := slot_set s i c.slot e
    rw [if_neg fun hci => by rw [← hci.1, hi] at hcopying; cases hcopying] at hset
    exact congrArg PoolEntry.domain hset
  dom k _ := by
    obtain ⟨b, hb⟩ := lowered_dom s (s.slot i).domain k.domain
    have hdom : ({ s.retired i rest e with freeQueue := free, events := events } : State).dom k.domain =
      { s.dom k.domain with backlog := b } := hb
    rw [hdom]
    exact .inl ⟨rfl, rfl⟩

theorem retireTakes_runs {s : State} (h : s.Runs) (hl : s.LayoutsInRange) (data : Word) : (retireTakes data s).Runs := by
  cases hq : s.retireQueue with
  | nil =>
    unfold retireTakes
    rw [hq]
    exact h
  | cons i rest =>
    have hdone : (retireDone i s).Runs := by
      rw [retireDone_eq hq]
      refine decideBacklogAgain_runs (decideSlotAgain_runs h.port ?_ (retired_waitsAs (events := s.events) h.core hq) hl)
      exact retired_coreFits h.core hq (.inl ⟨rfl, rfl⟩)
    have hfault : (retireFault i s).Runs := by
      rw [retireFault_eq hq]
      refine decideBacklogAgain_runs (decideSlotAgain_runs h.port ?_ (retired_waitsAs (free := s.freeQueue) h.core hq) hl)
      exact (retired_coreFits h.core hq (.inr ⟨rfl, rfl⟩)).congr rfl rfl rfl rfl rfl rfl rfl rfl
    rw [retireTakes_eq hq]
    split
    next => split <;> [exact hdone; exact hfault]
    next =>
      split
      next =>
        exact ⟨h.core.congr rfl rfl rfl rfl rfl rfl rfl rfl,
          h.port.congr rfl rfl rfl rfl rfl (fun _ => rfl) id fun _ _ => .inl ⟨rfl, rfl⟩⟩
      next => exact hdone

end Sys2Proof.Machine
end

section
/-! The restore streams' words, the ticks and RESUME keep the working state and the Port fitting (R37, R38, R86 to R89, R98, R99,
R149). -/

namespace Sys2Proof.Machine

section Restore

variable {s : State} {d : Fin 4} {st : RestoreStream} {i : Nat}

/-- The restore stream's slot in progress. -/
theorem State.CoreFits.restoreSlot (h : s.CoreFits) (hst : (s.dom d).stream = some st) (hi : st.slot = some i) :
    (s.slot i).state = .restoring ∧ (s.slot i).domain = d := by
  obtain ⟨-, hs, hd⟩ := owns_eq_some_iff.mp ((h.domains d).slot st i hst hi).1
  exact ⟨hs, hd⟩

theorem State.CoreFits.rolls (h : s.CoreFits) (hst : (s.dom d).stream = some st) : (s.dom d).state = .rolling :=
  (h.domains d).stream.mp (by rw [hst]; rfl)

/-- A restore goes on with its slot (R87). -/
theorem restoreMoves_coreFits (h : s.CoreFits) (hst : (s.dom d).stream = some st) {st' : RestoreStream} (hslot : st'.slot = st.slot) :
    (s.setDom d { s.dom d with stream := some st' }).CoreFits := by
  refine setDom_coreFits h (by rfl) ((h.domains d).congr rfl rfl rfl ?_ fun hc => ?_) id
  · rw [hst, Option.map_some, Option.map_some, hslot]
  · exact ((h.domains d).committing hc).1

theorem unrestored_coreFits (h : s.CoreFits) (hst : (s.dom d).stream = some st) (hi : st.slot = some i) {e : PoolEntry}
    {free : List Nat} {events : List EventRec}
    (he : e.state = .free ∧ free = s.freeQueue ++ [i] ∨ e.state = .bad ∧ free = s.freeQueue) :
    (s.unrestored d st i e free events).CoreFits := by
  obtain ⟨hrestoring, hd⟩ := h.restoreSlot hst hi
  have hfits := (h.domains d).restored (st' := { st with slot := none, restored := st.restored + 1 }) hst hi rfl
  have hdom : ∀ x, (s.unrestored d st i e free events).dom x = if d = x then
      { s.dom d with stream := some { st with slot := none, restored := st.restored + 1 } } else s.dom x :=
    fun x => getElem_set_domain
  have hchanged : s.Changed (s.unrestored d st i e free events) i e :=
    changed_of_set (by rw [hrestoring]; exact SlotState.noConfusion) rfl
  have heh : ¬ e.state.holdsRecord = true := by
    rw [holds_of_free_or_bad (he.imp And.left And.left)]
    exact Bool.noConfusion
  have hfree := h.pool.freeTail (x := e.state) (by rw [hrestoring]; exact SlotState.noConfusion) he
  refine h.of_domain (d := d) ?_ rfl (fun x hx => ⟨?_, ?_⟩) ?_ (.inl rfl) (fun k hk => ?_) h.alone
  · refine h.pool.leaves (by rw [hrestoring]; rfl) hchanged (he.imp And.left And.left) hfree rfl rfl rfl (fun x => ?_) fun c hc => ?_
    · rw [hdom]
      split
      next hx => rw [← hx]
      next => rfl
    · have hcopying := h.pool.copy c hc
      rw [hchanged, if_neg fun hci => by rw [hci, hrestoring] at hcopying; cases hcopying]
      exact hcopying
  · exact owns_changed_other hchanged (fun _ => by rw [hd]; exact Ne.symm hx) fun hh => absurd hh heh
  · rw [hdom, if_neg (Ne.symm hx)]
  · rw [owns_changed hchanged, if_neg fun hh => heh hh.1, hdom, if_pos rfl]
    exact hfits
  · refine .inl ⟨hk, fun hkd => ?_⟩
    have hcommitting := h.commit k hk
    rw [hkd, h.rolls hst] at hcommitting
    cases hcommitting

theorem unrestored_waitsAs (h : s.CoreFits) (hst : (s.dom d).stream = some st) (hi : st.slot = some i) {e : PoolEntry}
    {free : List Nat} {events : List EventRec} : s.WaitsAs (s.unrestored d st i e free events) where
  port := rfl
  copy := rfl
  commit := rfl
  layout := rfl
  indexed r n hn := by
    rw [indexed_eq_none_iff] at hn ⊢
    exact fun hm => hn ((List.filter_sublist.map _).subset hm)
  slot c hc := by
    have hcopying := h.pool.copy c hc
    have hset := slot_set s i c.slot e
    rw [if_neg fun hci => by rw [← hci.1, (h.restoreSlot hst hi).1] at hcopying; cases hcopying] at hset
    exact congrArg PoolEntry.domain hset
  dom k _ := by
    have hdom : (s.unrestored d st i e free events).dom k.domain = if d = k.domain then
      { s.dom d with stream := some { st with slot := none, restored := st.restored + 1 } } else s.dom k.domain := getElem_set_domain
    rw [hdom]
    split
    next hd =>
      rw [← hd]
      exact .inl ⟨rfl, rfl⟩
    next => exact .inl ⟨rfl, rfl⟩

/-- A slot has left a rollback; what waits for it is decided, and the rollback goes on (R24, R88, R99). -/
theorem unrestored_runs (h : s.Runs) (hl : s.LayoutsInRange) (hst : (s.dom d).stream = some st) (hi : st.slot = some i)
    {e : PoolEntry} {free : List Nat} {events : List EventRec}
    (he : e.state = .free ∧ free = s.freeQueue ++ [i] ∨ e.state = .bad ∧ free = s.freeQueue) :
    (beginRestore d (decideSlotAgain (s.unrestored d st i e free events))).Runs := by
  have hruns := decideSlotAgain_runs h.port (unrestored_coreFits (events := events) h.core hst hi he)
    (unrestored_waitsAs h.core hst hi) hl
  exact ⟨beginRestore_coreFits hruns.core d, beginRestore_portFits hruns.core hruns.port d⟩

/-- A record word read back wrong: the slot and the rest of the list are STRANDED (R98). -/
def State.restoreFailed (s : State) (d : Fin 4) (i : Nat) (events : List EventRec) : State := { s with
  pool := movedPool .restoring .stranded (i :: (s.dom d).restoreList) s.pool
  events := events
  domains := s.domains.set d { s.dom d with state := .failed, restoreList := [], stream := none } }

theorem restoreRecordFault_failed (a : Addr) : ∃ events,
    restoreRecordFault d st i a s = decideSlotAgain (s.restoreFailed d i events) := by
  refine ⟨(record (.domainFailed d st.epoch) (record (.aborted d st.epoch st.cause st.restored)
        (record (.mediaFault .restore (some i) a) s))).events, ?_⟩
  unfold restoreRecordFault State.restoreFailed
  dsimp only
  rw [moveSlots_only_pool, moveSlots_pool _ _ (by decide), record_eq, record_eq, record_eq]
  simp only [record_events, record_mask]
  rfl

theorem restoreFailed_moved (events : List EventRec) :
    s.Moved (s.restoreFailed d i events) .restoring .stranded (i :: (s.dom d).restoreList) :=
  moved_of_movedPool SlotState.noConfusion rfl

theorem restoreFailed_dom (events : List EventRec) (x : Fin 4) : (s.restoreFailed d i events).dom x =
    if d = x then { s.dom d with state := .failed, restoreList := [], stream := none } else s.dom x := getElem_set_domain

theorem restoreFailed_coreFits (h : s.CoreFits) (hst : (s.dom d).stream = some st) (hi : st.slot = some i) (events : List EventRec) :
    (s.restoreFailed d i events).CoreFits := by
  obtain ⟨-, hd⟩ := h.restoreSlot hst hi
  have hmoved := restoreFailed_moved (s := s) (d := d) (i := i) events
  have hlist : ∀ j ∈ i :: (s.dom d).restoreList, (s.slot j).domain = d := fun j hj => by
    obtain rfl | hj := List.mem_cons.mp hj
    · exact hd
    · exact h.listed hj
  have howns : (s.restoreFailed d i events).owns d = withMoved (s.owns d) .restoring .stranded := by
    refine owns_moved hmoved rfl rfl fun j hj => ?_
    obtain ⟨-, hj | hj⟩ := (h.domains d).restoring j hj
    · exact List.mem_cons_of_mem _ hj
    · rw [hst, Option.bind_some, hi] at hj
      cases hj
      exact List.mem_cons_self
  refine h.of_domain (d := d) ?_ rfl (fun x hx => ⟨owns_moved_other hmoved fun j hj => ?_, ?_⟩) ?_ (.inl rfl)
    (fun k hk => ?_) h.alone
  · refine h.pool.of_moved hmoved rfl rfl SlotState.noConfusion rfl rfl rfl rfl (fun x => ?_) fun _ => id
    rw [restoreFailed_dom]
    split
    next hx => rw [← hx]
    next => rfl
  · rw [hlist j hj]
    exact Ne.symm hx
  · rw [restoreFailed_dom, if_neg (Ne.symm hx)]
  · rw [howns, restoreFailed_dom, if_pos rfl]
    exact (h.domains d).restoreFails hst hi
  · refine .inl ⟨hk, fun hkd => ?_⟩
    have hcommitting := h.commit k hk
    rw [hkd, h.rolls hst] at hcommitting
    cases hcommitting

theorem restoreFailed_waitsAs (h : s.Runs) (hst : (s.dom d).stream = some st) (events : List EventRec) :
    s.WaitsAs (s.restoreFailed d i events) where
  port := rfl
  copy := rfl
  commit := rfl
  layout := rfl
  indexed _ _ := id
  slot c _ := by
    rw [restoreFailed_moved events c.slot]
    split <;> rfl
  dom k hk := by
    rw [restoreFailed_dom]
    split
    next hd =>
      have hrolling := h.core.rolls hst
      rw [hd] at hrolling
      refine .inr (h.port.waitsNot hk ?_ ?_ ?_) <;> rw [hrolling] <;> exact UpdateState.noConfusion
    next => exact .inl ⟨rfl, rfl⟩

end Restore

theorem restoreMoves_runs {s : State} (h : s.Runs) {d : Fin 4} {st st' : RestoreStream} (hst : (s.dom d).stream = some st)
    (hslot : st'.slot = st.slot) : (s.setDom d { s.dom d with stream := some st' }).Runs :=
  ⟨restoreMoves_coreFits h.core hst hslot, setDom_portFits h.port fun _ _ _ => .inl ⟨rfl, rfl⟩⟩

theorem restoreTakes_runs {s : State} (h : s.Runs) (hl : s.LayoutsInRange) (d : Fin 4) (data : Word) : (restoreTakes d data s).Runs := by
  unfold restoreTakes
  split
  next => exact h
  next st hst =>
    split
    next => exact h
    next i hi =>
      split
      next => exact restoreMoves_runs h hst rfl
      next =>
        rw [restoreSlotDone_eq]
        exact unrestored_runs h hl hst hi (.inl ⟨rfl, rfl⟩)
      next =>
        rw [restoreTagFault_eq]
        exact unrestored_runs h hl hst hi (.inr ⟨rfl, rfl⟩)
      next =>
        obtain ⟨events, he⟩ := restoreRecordFault_failed (s := s) (d := d) (st := st) (i := i)
          (restoreAddr s (s.slotRegion i) i (s.slot i).record st.pos)
        rw [he]
        exact decideSlotAgain_runs h.port (restoreFailed_coreFits h.core hst hi events) (restoreFailed_waitsAs h hst events) hl

/-! ### Ticks and RESUME -/

/-- A timer has changed. -/
theorem timed_runs {s : State} (h : s.Runs) (d : Fin 4) (n : Nat) : (s.setDom d { s.dom d with timer := n }).Runs :=
  ⟨setDom_coreFits h.core (by rfl) ((h.core.domains d).congr rfl rfl rfl rfl fun hc => ((h.core.domains d).committing hc).1) id,
    setDom_portFits h.port fun _ _ _ => .inl ⟨rfl, rfl⟩⟩

theorem tickDomain_runs {s : State} (h : s.Runs) (d : Fin 4) : (tickDomain d s).Runs := by
  have htimed := timed_runs h d ((s.dom d).timer - 1)
  unfold tickDomain
  dsimp only
  split
  next hs =>
    have hdom := s.dom_setDom d d { s.dom d with timer := (s.dom d).timer - 1 }
    rw [if_pos rfl] at hdom
    obtain ⟨hcore, hport⟩ := abortUpdate_fits htimed.core htimed.port .deadline (.inr ((congrArg Runtime.state hdom).trans hs.2))
    exact ⟨hcore, hport⟩
  next => exact htimed

theorem tickDomains_runs {s : State} (h : s.Runs) : (tickDomains s).Runs :=
  tickDomain_runs (tickDomain_runs (tickDomain_runs (tickDomain_runs h 0) 1) 2) 3

/-- RESUME (R149). -/
theorem resumed_fits {s : State} (h : s.Fits) {d : Fin 4} (hs : (s.dom d).state = .fenced) :
    (s.setDom d { s.dom d with state := .idle }).Fits where
  core := setDom_coreFits h.core (by rfl) ((h.core.domains d).resumed hs) fun hc => by rw [hs] at hc; cases hc
  modes := {
    port := fun hf => setDom_portFits (h.modes.port hf) fun k hk hd => by
      subst hd
      refine .inr ((h.modes.port hf).waitsNot hk ?_ ?_ ?_) <;> rw [hs] <;> exact UpdateState.noConfusion
    frozen := h.modes.frozen
    quiet := fun hi => by
      have hq := h.modes.quiet hi
      unfold State.quiet at hq ⊢
      rw [Bool.and_eq_true, List.all_eq_true] at hq ⊢
      refine ⟨fun x hx => ?_, hq.2⟩
      rw [State.dom_setDom]
      split
      next => rfl
      next => exact hq.1 x hx
    starting := fun hm => by
      obtain ⟨-, -, -, hd, -⟩ := h.modes.starting hm
      rw [hd] at hs
      cases hs }

end Sys2Proof.Machine
end

section
/-! The working state that the end of STARTING rebuilds from the recovery record fits together (R118, R126). -/

namespace Sys2Proof.Machine

/-! ### Outcomes -/

/-- The item of a STRANDED outcome (R118). -/
def SlotOutcome.item : SlotOutcome → Option RecItem
  | .stranded it => some it
  | _ => none

/-- The record an item names. -/
def RecItem.key (it : RecItem) : Fin 16 × Nat := (it.region, it.record)

theorem SlotOutcome.item_eq_some_iff {o : SlotOutcome} {it : RecItem} : o.item = some it ↔ o = .stranded it := by
  cases o <;> simp [SlotOutcome.item]

theorem strandedItems_eq (r : Recovery) : r.strandedItems = r.outcomes.filterMap SlotOutcome.item :=
  List.filterMap_congr fun o _ => by cases o <;> rfl

theorem mem_strandedItems {r : Recovery} {it : RecItem} : it ∈ r.strandedItems ↔ ∃ i : Nat, r.outcomes[i]? = some (.stranded it) := by
  rw [strandedItems_eq, List.mem_filterMap]
  constructor
  · rintro ⟨o, ho, hit⟩
    obtain rfl := SlotOutcome.item_eq_some_iff.mp hit
    exact List.mem_iff_getElem?.mp ho
  · rintro ⟨i, hi⟩
    exact ⟨_, List.mem_of_getElem? hi, rfl⟩

/-- The entry of an outcome holds a record exactly where the outcome is STRANDED. -/
theorem entry_holds_iff {o : SlotOutcome} : o.entry.state.holdsRecord = true ↔ ∃ it, o = .stranded it := by
  cases o <;> simp [SlotOutcome.entry, SlotState.holdsRecord, PoolEntry.freeEntry, PoolEntry.badEntry]

/-- The Slot Index entries of outcomes counted from a slot name the items' records. -/
theorem indexEntries_records (os : List SlotOutcome) : ∀ n : Nat,
    (((os.zipIdx n).filterMap fun p => p.1.indexEntry p.2).map fun e => (e.region, e.record))
      = (os.filterMap SlotOutcome.item).map RecItem.key := by
  induction os with
  | nil => exact fun _ => rfl
  | cons o rest ih =>
    intro n
    rw [List.zipIdx_cons, List.filterMap_cons, List.filterMap_cons]
    cases o with
    | stranded it => exact congrArg (RecItem.key it :: ·) (ih (n + 1))
    | free => exact ih (n + 1)
    | bad => exact ih (n + 1)
    | listed => exact ih (n + 1)

/-- They name ascending slots. -/
theorem indexEntries_slots (os : List SlotOutcome) : ∀ n : Nat,
    (((os.zipIdx n).filterMap fun p => p.1.indexEntry p.2).map (·.slot)).Sublist (List.range' n os.length) := by
  induction os with
  | nil => exact fun _ => List.Sublist.refl _
  | cons o rest ih =>
    intro n
    rw [List.zipIdx_cons, List.filterMap_cons, List.length_cons, List.range'_succ]
    cases o with
    | stranded it => exact (ih (n + 1)).cons_cons n
    | free => exact (ih (n + 1)).cons n
    | bad => exact (ih (n + 1)).cons n
    | listed => exact (ih (n + 1)).cons n

theorem mem_indexEntries {os : List SlotOutcome} {e : IndexEntry} :
    e ∈ os.zipIdx.filterMap (fun p => p.1.indexEntry p.2)
      ↔ ∃ it, os[e.slot]? = some (.stranded it) ∧ e.region = it.region ∧ e.record = it.record := by
  rw [List.mem_filterMap]
  constructor
  · rintro ⟨⟨o, i⟩, hp, he⟩
    rw [List.mem_zipIdx_iff_getElem?] at hp
    cases o with
    | stranded it =>
      cases he
      exact ⟨it, hp, rfl, rfl⟩
    | free => cases he
    | bad => cases he
    | listed => cases he
  · rintro ⟨it, hit, hr, hn⟩
    refine ⟨(.stranded it, e.slot), List.mem_zipIdx_iff_getElem?.mpr hit, ?_⟩
    obtain ⟨r, n, i⟩ := e
    obtain rfl : r = it.region := hr
    obtain rfl : n = it.record := hn
    rfl

/-! ### Nothing discarded and rebuilt disagrees -/

/-- A state without working state fits together, whatever its layout. -/
theorem coreFits_of_discarded {s : State} (h : s.Discarded) (hcopy : s.copy = none) (hcommit : s.commit = none) : s.CoreFits := by
  have hslot : ∀ i, s.slot i = .badEntry := fun i => slot_of_le (by rw [h.pool]; exact Nat.zero_le i)
  have hnone : ∀ d, s.owns d = fun _ => none := fun d => by
    funext i
    refine owns_eq_none fun hh => ?_
    rw [hslot] at hh
    cases hh
  have hidle : ∀ {l : List Nat} {x : SlotState}, l = [] → x ≠ .bad → ∀ i, i ∈ l ↔ (s.slot i).state = x := by
    intro l x hl hx i
    rw [hl, hslot]
    exact ⟨fun hm => absurd hm List.not_mem_nil, fun hb => absurd hb.symm hx⟩
  refine ⟨⟨?_, ?_, ?_, ?_, ?_, ?_, ?_, ?_, ?_⟩, ?_, ?_, ?_⟩
  · rw [h.free]
    exact ⟨.nil, hidle rfl SlotState.noConfusion⟩
  · rw [h.retire]
    exact ⟨.nil, hidle rfl SlotState.noConfusion⟩
  · intro d
    rw [h.domain, h.retire]
    rfl
  · rw [h.index]
    exact .nil
  · rw [h.index]
    exact .nil
  · rw [h.index]
    exact fun e he => absurd he List.not_mem_nil
  · intro i hi
    rw [hslot] at hi
    cases hi
  · intro i hi
    rw [hslot] at hi
    cases hi
  · intro c hc
    rw [hcopy] at hc
    cases hc
  · intro d
    rw [hnone, h.domain]
    exact .of_none rfl rfl rfl UpdateState.noConfusion UpdateState.noConfusion
  · intro c hc
    rw [hcommit] at hc
    cases hc
  · exact fun hc => absurd hcommit hc

theorem discarded_of_coreFits {s : State} (h : s.CoreFits) (hp : s.pool = []) (hd : ∀ d, s.dom d = .discarded) :
    s.Discarded ∧ s.copy = none := by
  have hslot : ∀ i, s.slot i = .badEntry := fun i => slot_of_le (by rw [hp]; exact Nat.zero_le i)
  refine ⟨⟨hp, ?_, ?_, ?_, hd⟩, ?_⟩
  · refine List.eq_nil_iff_forall_not_mem.mpr fun i hi => ?_
    rw [h.pool.free.2, hslot] at hi
    cases hi
  · refine List.eq_nil_iff_forall_not_mem.mpr fun i hi => ?_
    rw [h.pool.retire.2, hslot] at hi
    cases hi
  · refine List.eq_nil_iff_forall_not_mem.mpr fun e he => ?_
    have hh := (h.pool.indexed e he).1
    rw [hslot] at hh
    cases hh
  · by_contra hc
    obtain ⟨c, hc⟩ := Option.ne_none_iff_exists'.mp hc
    have hs := h.pool.copy c hc
    rw [hslot] at hs
    cases hs

/-! ### The rebuilt working state -/

/-- Items that RESTORE has still to settle fit to the recovery record's outcomes (R118, R122 to R125). -/
structure State.Awaits (s : State) (l : List RecItem) : Prop where
  records : ((l ++ s.recovery.strandedItems).map RecItem.key).Nodup
  slots : (l.map (·.slot)).Nodup
  listed : ∀ it ∈ l, s.recovery.outcomes[it.slot]? = some .listed ∧ s.ItemFits it
  stranded : ∀ i it, s.recovery.outcomes[i]? = some (.stranded it) →
    it.slot = i ∧ s.ItemFits it ∧ s.recovery.failedDomains[it.domain] = true

theorem rebuilt_slot (s : State) (i : Nat) :
    s.rebuilt.slot i = (s.recovery.outcomes[i]?.map SlotOutcome.entry).getD .badEntry := by
  unfold State.slot State.rebuilt
  rw [List.getD_eq_getElem?_getD, List.getElem?_map]

theorem rebuilt_holds {s : State} {i : Nat} (h : (s.rebuilt.slot i).state.holdsRecord = true) :
    ∃ it, s.recovery.outcomes[i]? = some (.stranded it) := by
  rw [rebuilt_slot] at h
  cases ho : s.recovery.outcomes[i]? with
  | none =>
    rw [ho] at h
    cases h
  | some o =>
    rw [ho] at h
    obtain ⟨it, rfl⟩ := entry_holds_iff.mp h
    exact ⟨it, rfl⟩

theorem rebuilt_slot_stranded {s : State} {i : Nat} {it : RecItem} (h : s.recovery.outcomes[i]? = some (.stranded it)) :
    s.rebuilt.slot i =
      { state := .stranded, domain := it.domain, epoch := it.epoch, region := it.region, record := it.record } := by
  rw [rebuilt_slot, h]
  rfl

theorem rebuilt_dom (s : State) (d : Fin 4) : s.rebuilt.dom d = recoveredDomain s d := dom_ofFn s _ d

theorem recoveredDomain_idle (s : State) (d : Fin 4) : (recoveredDomain s d).members = [] ∧ (recoveredDomain s d).restoreList = []
    ∧ (recoveredDomain s d).stream = none ∧ (recoveredDomain s d).backlog = 0 ∧ (recoveredDomain s d).state ≠ .rolling
    ∧ (recoveredDomain s d).state ≠ .committing := by
  unfold recoveredDomain
  split
  next =>
    refine ⟨rfl, rfl, rfl, rfl, ?_, ?_⟩
    all_goals
      dsimp only
      split
      next => exact UpdateState.noConfusion
      next => split <;> exact UpdateState.noConfusion
  next => exact ⟨rfl, rfl, rfl, rfl, UpdateState.noConfusion, UpdateState.noConfusion⟩

theorem rebuilt_notRetiring (s : State) (i : Nat) : (s.rebuilt.slot i).state ≠ .retiring := by
  rw [rebuilt_slot]
  cases s.recovery.outcomes[i]? with
  | none => exact SlotState.noConfusion
  | some o => cases o <;> exact SlotState.noConfusion

theorem rebuilt_poolFits {s : State} {l : List RecItem} (h : s.Awaits l) (hcopy : s.copy = none) : s.rebuilt.PoolFits where
  free := by
    refine ⟨List.nodup_range.filter _, fun i => ?_⟩
    have hfree : i ∈ s.rebuilt.freeQueue ↔ i < s.rebuilt.pool.length ∧ (s.rebuilt.slot i).state = .free := by
      show i ∈ freeSlots s.rebuilt.pool ↔ _
      unfold freeSlots
      rw [List.mem_filter, List.mem_range, decide_eq_true_eq]
      rfl
    rw [hfree]
    exact ⟨And.right, fun hs => ⟨lt_of_notBad (by rw [hs]; exact SlotState.noConfusion), hs⟩⟩
  retire := ⟨.nil, fun i => ⟨fun hm => absurd hm List.not_mem_nil, fun hs => absurd hs (rebuilt_notRetiring s i)⟩⟩
  backlog d := by
    obtain ⟨-, -, -, hb, -⟩ := recoveredDomain_idle s d
    rw [rebuilt_dom, hb]
    rfl
  indexSlots := (indexEntries_slots s.recovery.outcomes 0).nodup (List.nodup_range' ..)
  indexRecords := by
    have hrecords := h.records
    rw [List.map_append, strandedItems_eq] at hrecords
    have hkeys := (List.nodup_append.mp hrecords).2.1
    rw [← indexEntries_records _ 0] at hkeys
    exact hkeys
  indexed e he := by
    obtain ⟨it, hit, hr, hn⟩ := mem_indexEntries.mp he
    rw [rebuilt_slot_stranded hit, hr, hn]
    exact ⟨rfl, rfl, rfl⟩
  covered i hi := by
    obtain ⟨it, hit⟩ := rebuilt_holds hi
    exact List.mem_map.mpr ⟨{ region := it.region, record := it.record, slot := i }, mem_indexEntries.mpr ⟨it, hit, rfl, rfl⟩, rfl⟩
  owned i hi := by
    obtain ⟨it, hit⟩ := rebuilt_holds hi
    simp only [rebuilt_slot_stranded hit]
    exact (h.stranded i it hit).2.1.2
  copy c hc := by
    have hnone : s.copy = some c := hc
    rw [hcopy] at hnone
    cases hnone

theorem rebuilt_coreFits {s : State} {l : List RecItem} (h : s.Awaits l) (hcopy : s.copy = none) (hcommit : s.commit = none) : s.rebuilt.CoreFits where
  pool := rebuilt_poolFits h hcopy
  domains d := by
    rw [rebuilt_dom]
    obtain ⟨hm, hlist, hst, -, hr, hc⟩ := recoveredDomain_idle s d
    refine .of_stranded (fun i x hx => ?_) hm hlist hst hr hc
    obtain ⟨hh, hs, hd⟩ := owns_eq_some_iff.mp hx
    obtain ⟨it, hit⟩ := rebuilt_holds (s := s) (i := i) (by rw [hs]; exact hh)
    rw [rebuilt_slot_stranded hit] at hs hd
    obtain rfl : it.domain = d := hd
    obtain ⟨-, ⟨henabled, -⟩, hfailed⟩ := h.stranded i it hit
    refine ⟨hs.symm, (recoveredDomain_failed s it.domain).mpr ?_⟩
    unfold State.failedAtStart
    rw [henabled, hfailed]
    rfl
  commit c hc := by
    have hnone : s.commit = some c := hc
    rw [hcommit] at hnone
    cases hnone
  alone hc := absurd hcommit hc

theorem started_coreFits {s : State} {l : List RecItem} (h : s.Awaits l) (hcopy : s.copy = none) (hcommit : s.commit = none) : s.started.CoreFits :=
  (rebuilt_coreFits h hcopy hcommit).congr (rebuilt_pool s).symm (rebuilt_domains s).symm (rebuilt_freeQueue s).symm rfl
    (rebuilt_slotIndex s).symm rfl rfl rfl

end Sys2Proof.Machine
end

section
/-! The recovery's words keep STARTING fitting together up to its end (R118, R120 to R127). -/

namespace Sys2Proof.Machine

/-! ### STARTING -/

/-- STARTING without working state; the recovery record apart (R118). -/
structure State.Starting (s : State) : Prop where
  mode : s.mode = .starting
  work : s.Discarded
  copy : s.copy = none
  commit : s.commit = none
  hit : s.journalHit = none
  layouts : s.LayoutsInRange

theorem State.Fits.start {s : State} (h : s.Fits) (hm : s.mode = .starting) (hl : s.LayoutsInRange) :
    s.Starting ∧ s.RecoveryFits := by
  obtain ⟨hp, hcommit, hhit, hd, hr⟩ := h.modes.starting hm
  obtain ⟨hwork, hcopy⟩ := discarded_of_coreFits h.core hp hd
  exact ⟨⟨hm, hwork, hcopy, hcommit, hhit, hl⟩, hr⟩

theorem State.Starting.fits {s : State} (h : s.Starting) (hr : s.RecoveryFits) : s.Fits where
  core := coreFits_of_discarded h.work h.copy h.commit
  modes := {
    port := fun _ => State.Apart.portFits ⟨h.hit, h.copy, h.commit⟩
    frozen := fun _ => h.hit
    quiet := fun hi => by
      rw [h.mode] at hi
      cases hi
    starting := fun _ => ⟨h.work.pool, h.commit, h.hit, h.work.domain, hr⟩ }

theorem State.Starting.recovered {s : State} (h : s.Starting) {r : Recovery} (hc : r.chosen = s.recovery.chosen) :
    (s.setRecovery r).Starting :=
  ⟨h.mode, ⟨h.work.pool, h.work.free, h.work.retire, h.work.index, h.work.domain⟩, h.copy, h.commit, h.hit, h.layouts.congr rfl rfl hc⟩

theorem State.Starting.recorded {s : State} (h : s.Starting) (e : Event) : (record e s).Starting := by
  rw [record_eq]
  exact ⟨h.mode, ⟨h.work.pool, h.work.free, h.work.retire, h.work.index, h.work.domain⟩, h.copy, h.commit, h.hit, h.layouts⟩

/-! ### What the recovery record has to be at each position -/

/-- SCAN has judged as many slots as the scan position says, none STRANDED (R122). -/
structure State.Scans (s : State) : Prop where
  awaits : s.Awaits s.recovery.list
  judged : s.recovery.outcomes.length = s.recovery.scanPos
  none : s.recovery.strandedItems = []

/-- What SCAN knows of the slot in judgement (R122). -/
def State.ScanFits (s : State) : ScanPos → Prop
  | .epoch d => (s.cfg d).enabled = true
  | .locator d _ => (s.cfg d).enabled = true
  | .check d _ loc => (s.cfg d).enabled = true ∧ (s.layout.regions[locatorRegion loc]).domain = d
  | .image d _ loc _ _ _ => (s.cfg d).enabled = true ∧ (s.layout.regions[locatorRegion loc]).domain = d
  | _ => True

theorem RecoveryFits.awaits {s : State} (h : s.RecoveryFits) : s.Awaits s.recovery.unsettled :=
  ⟨h.records, h.slots, h.listed, fun i it hi =>
    h.stranded i (List.getElem?_eq_some_iff.mp hi).1 it (mem_strandedItems.mpr ⟨i, hi⟩) hi⟩

theorem unsettled_of_apart {r : Recovery} (h : ∀ it p b, r.pos ≠ .restore it p b) : r.unsettled = r.list := by
  unfold Recovery.unsettled
  split
  next it p b hp => exact absurd hp (h it p b)
  next => exact List.append_nil _

theorem recoveryFits_restore_iff {s : State} {it : RecItem} {p : RestorePos} {b : Bool} (hp : s.recovery.pos = .restore it p b) :
    s.RecoveryFits ↔ s.Awaits (s.recovery.list ++ [it]) := by
  have hu : s.recovery.unsettled = s.recovery.list ++ [it] := by
    unfold Recovery.unsettled
    rw [hp]
  rw [← hu]
  refine ⟨RecoveryFits.awaits, fun h => ⟨h.records, h.slots, h.listed, fun i _ it _ hi => h.stranded i it hi, ?_⟩⟩
  rw [hp]
  exact trivial

theorem recoveryFits_scan_iff {s : State} {p : ScanPos} {b : Bool} (hp : s.recovery.pos = .scan p b) :
    s.RecoveryFits ↔ s.Scans ∧ s.ScanFits p := by
  have hu : s.recovery.unsettled = s.recovery.list := unsettled_of_apart fun _ _ _ h => by rw [hp] at h; cases h
  constructor
  · intro h
    have ha := RecoveryFits.awaits h
    have hphase := h.phase
    rw [hu] at ha
    rw [hp] at hphase
    obtain ⟨hn, hs, hfits⟩ := hphase
    refine ⟨⟨ha, hn, hs⟩, ?_⟩
    cases p <;> exact hfits
  · rintro ⟨⟨ha, hn, hs⟩, hfits⟩
    refine ⟨?_, ?_, ?_, fun i _ it _ hi => ha.stranded i it hi, ?_⟩
    · rw [hu]
      exact ha.records
    · rw [hu]
      exact ha.slots
    · rw [hu]
      exact ha.listed
    · rw [hp]
      refine ⟨hn, hs, ?_⟩
      cases p <;> exact hfits

/-- Before SCAN nothing is listed and nothing judged. -/
theorem recoveryFits_load_iff {s : State} (hr : ∀ it p b, s.recovery.pos ≠ .restore it p b) (hs : ∀ p b, s.recovery.pos ≠ .scan p b) :
    s.RecoveryFits ↔ s.recovery.list = [] ∧ s.recovery.outcomes = [] := by
  have hu : s.recovery.unsettled = s.recovery.list := unsettled_of_apart hr
  constructor
  · intro h
    have hphase := h.phase
    cases hp : s.recovery.pos with
    | restore it p b => exact absurd hp (hr it p b)
    | scan p b => exact absurd hp (hs p b)
    | idle => rw [hp] at hphase; exact hphase
    | copies ws => rw [hp] at hphase; exact hphase
    | epochs ds => rw [hp] at hphase; exact hphase
  · rintro ⟨hl, ho⟩
    have hnone : s.recovery.strandedItems = [] := by rw [strandedItems_eq, ho]; rfl
    refine ⟨?_, ?_, ?_, fun i hi => ?_, ?_⟩
    · rw [hu, hl, hnone]
      exact .nil
    · rw [hu, hl]
      exact .nil
    · rw [hu, hl]
      exact fun it hit => absurd hit List.not_mem_nil
    · rw [ho] at hi
      exact absurd hi (Nat.not_lt_zero i)
    · cases hp : s.recovery.pos with
      | restore it p b => exact absurd hp (hr it p b)
      | scan p b => exact absurd hp (hs p b)
      | idle => exact ⟨hl, ho⟩
      | copies ws => exact ⟨hl, ho⟩
      | epochs ds => exact ⟨hl, ho⟩

/-! ### RESTORE goes on (R124, R126) -/

theorem endStarting_fits {s : State} (h : s.Starting) {l : List RecItem} (ha : s.Awaits l) : (endStarting s).Fits := by
  rw [endStarting_eq]
  have hruns : (endHold s.started).Runs := by
    refine endHold_runs (started_coreFits ha h.copy h.commit) ⟨?_, h.copy, h.commit⟩ (h.layouts.congr rfl rfl rfl)
    exact (journalHit_congr rfl).trans h.hit
  refine hruns.fits ?_
  rw [(endHold_frame s.started).mode]
  exact .inl rfl

theorem nextRestore_fits {s : State} (h : s.Starting) (ha : s.Awaits s.recovery.list) : (nextRestore s).Fits := by
  unfold nextRestore
  split
  next =>
    rw [unlessFrozen_of_starting h.mode]
    exact endStarting_fits h ha
  next it hlast =>
    obtain ⟨rest, hrest⟩ := List.getLast?_eq_some_iff.mp hlast
    refine State.Starting.fits (h.recovered (by rfl)) ((recoveryFits_restore_iff (by rfl)).mpr ?_)
    have hlist : s.recovery.list.dropLast ++ [it] = s.recovery.list := by rw [hrest, List.dropLast_concat]
    show State.Awaits _ (s.recovery.list.dropLast ++ [it])
    rw [hlist]
    exact ⟨ha.records, ha.slots, ha.listed, ha.stranded⟩

/-! ### Outcomes changed in RESTORE (R124, R125) -/

/-- A listed outcome settled without stranding leaves the stranded items. -/
theorem filterMap_item_set {o : SlotOutcome} (ho : o.item = none) : ∀ (os : List SlotOutcome) (i : Nat), os[i]? = some .listed →
    (os.set i o).filterMap SlotOutcome.item = os.filterMap SlotOutcome.item
  | [], i, h => by cases h
  | .listed :: rest, 0, _ => by rw [List.set_cons_zero, List.filterMap_cons, ho]; rfl
  | x :: rest, i + 1, h => by
    rw [List.set_cons_succ, List.filterMap_cons, List.filterMap_cons, filterMap_item_set ho rest i h]

/-- A listed outcome that is stranded adds its item. -/
theorem filterMap_item_strand {it : RecItem} : ∀ (os : List SlotOutcome) (i : Nat), os[i]? = some .listed →
    ((os.set i (.stranded it)).filterMap SlotOutcome.item).Perm (it :: os.filterMap SlotOutcome.item)
  | [], i, h => by cases h
  | .listed :: rest, 0, _ => .refl _
  | x :: rest, i + 1, h => by
    have ih := filterMap_item_strand (it := it) rest i h
    rw [List.set_cons_succ, List.filterMap_cons, List.filterMap_cons]
    cases x.item with
    | none => exact ih
    | some y => exact (ih.cons y).trans (.swap it y _)

/-- Where no item strands the slot its outcome stays. -/
theorem strandOutcomes_other {items : List RecItem} : ∀ {os : List SlotOutcome} {i : Nat}, (∀ x ∈ items, x.slot ≠ i) →
    (strandOutcomes items os)[i]? = os[i]? := by
  unfold strandOutcomes
  induction items with
  | nil => exact fun _ => rfl
  | cons x rest ih =>
    intro os i h
    rw [List.foldl_cons, ih fun y hy => h y (List.mem_cons_of_mem x hy), List.getElem?_set_ne (h x List.mem_cons_self)]

/-- A stranded outcome is an item's or was stranded before. -/
theorem strandOutcomes_stranded {items : List RecItem} {y : RecItem} : ∀ {os : List SlotOutcome} {i : Nat},
    (strandOutcomes items os)[i]? = some (.stranded y) → (y ∈ items ∧ y.slot = i) ∨ os[i]? = some (.stranded y) := by
  unfold strandOutcomes
  induction items with
  | nil => exact fun h => .inr h
  | cons x rest ih =>
    intro os i h
    rw [List.foldl_cons] at h
    obtain ⟨hy, hi⟩ | hset := ih h
    · exact .inl ⟨List.mem_cons_of_mem x hy, hi⟩
    · by_cases hx : x.slot = i
      · subst hx
        rw [List.getElem?_set_self'] at hset
        cases ho : os[x.slot]? with
        | none =>
          rw [ho] at hset
          cases hset
        | some o =>
          rw [ho] at hset
          cases hset
          exact .inl ⟨List.mem_cons_self, rfl⟩
      · rw [List.getElem?_set_ne hx] at hset
        exact .inr hset

/-- Listed slots that are stranded add their items. -/
theorem strandOutcomes_items {items : List RecItem} : ∀ {os : List SlotOutcome}, (items.map (·.slot)).Nodup →
    (∀ x ∈ items, os[x.slot]? = some .listed) →
    ((strandOutcomes items os).filterMap SlotOutcome.item).Perm (items ++ os.filterMap SlotOutcome.item) := by
  unfold strandOutcomes
  induction items with
  | nil => exact fun _ _ => .refl _
  | cons x rest ih =>
    intro os hnodup hlisted
    rw [List.map_cons, List.nodup_cons] at hnodup
    obtain ⟨hnot, hrest⟩ := hnodup
    rw [List.foldl_cons]
    refine (ih hrest fun y hy => ?_).trans ?_
    · rw [List.getElem?_set_ne fun hxy => hnot (List.mem_map.mpr ⟨y, hy, hxy.symm⟩)]
      exact hlisted y (List.mem_cons_of_mem x hy)
    · exact ((filterMap_item_strand os x.slot (hlisted x List.mem_cons_self)).append_left rest).trans List.perm_middle

end Sys2Proof.Machine
end

section
/-! LOAD, SCAN and RESTORE word by word (R120 to R125). -/

namespace Sys2Proof.Machine

/-! ### RESTORE -/

/-- The outcome of the item in progress is settled, FREE or BAD (R124, R125). -/
theorem awaits_settled {s : State} {it : RecItem} {o : SlotOutcome} {r : Recovery} (h : s.Awaits (s.recovery.list ++ [it]))
    (ho : o = .free ∨ o = .bad) (hl : r.list = s.recovery.list) (hos : r.outcomes = s.recovery.outcomes.set it.slot o)
    (hf : r.failedDomains = s.recovery.failedDomains) : (s.setRecovery r).Awaits r.list := by
  have hitem : o.item = none := by obtain rfl | rfl := ho <;> rfl
  have hlisted := (h.listed it (List.mem_append_right _ List.mem_cons_self)).1
  have hother : ∀ x ∈ s.recovery.list, x.slot ≠ it.slot := by
    have hslots := h.slots
    rw [List.map_append, List.nodup_append] at hslots
    exact fun x hx => hslots.2.2 _ (List.mem_map_of_mem hx) _ List.mem_cons_self
  have hstranded : (s.setRecovery r).recovery.strandedItems = s.recovery.strandedItems := by
    rw [strandedItems_eq, strandedItems_eq, State.setRecovery_recovery, hos, filterMap_item_set hitem _ _ hlisted]
  refine ⟨?_, ?_, fun x hx => ?_, fun i x hi => ?_⟩
  · rw [hstranded, hl]
    refine h.records.sublist (List.Sublist.map _ ?_)
    exact (List.sublist_append_left _ _).append (List.Sublist.refl _)
  · rw [hl]
    exact h.slots.sublist ((List.sublist_append_left _ _).map _)
  · rw [hl] at hx
    rw [State.setRecovery_recovery, hos, List.getElem?_set_ne (hother x hx).symm]
    exact h.listed x (List.mem_append_left _ hx)
  · rw [State.setRecovery_recovery, hos, List.getElem?_set] at hi
    rw [State.setRecovery_recovery, hf]
    split at hi
    next =>
      split at hi
      next =>
        cases hi
        cases hitem
      next => cases hi
    next => exact h.stranded i x hi

/-- The item in progress and the rest of its domain's list are stranded (R125). -/
theorem awaits_stranded {s : State} {it : RecItem} {r : Recovery} (h : s.Awaits (s.recovery.list ++ [it]))
    (hl : r.list = s.recovery.list.filter fun x => decide (x.domain ≠ it.domain))
    (hos : r.outcomes = strandOutcomes (it :: s.recovery.list.filter fun x => decide (x.domain = it.domain)) s.recovery.outcomes)
    (hf : r.failedDomains = s.recovery.failedDomains.set it.domain true) : (s.setRecovery r).Awaits r.list := by
  generalize hitems : (it :: s.recovery.list.filter fun x => decide (x.domain = it.domain)) = items at hos
  have hsplit : (r.list ++ items).Perm (s.recovery.list ++ [it]) := by
    rw [hl, ← hitems]
    refine List.perm_middle.trans (((List.perm_append_comm.trans ?_).cons it).trans (List.perm_append_singleton it _).symm)
    have hnot : (s.recovery.list.filter fun x => decide (x.domain ≠ it.domain)) =
        s.recovery.list.filter fun x => !decide (x.domain = it.domain) := List.filter_congr fun x _ => decide_not
    rw [hnot]
    exact List.filter_append_perm _ _
  have hmem : ∀ x, x ∈ r.list ∨ x ∈ items → x ∈ s.recovery.list ++ [it] := fun x hx =>
    hsplit.mem_iff.mp (List.mem_append.mpr hx)
  have hslots : ((r.list ++ items).map (·.slot)).Nodup := (hsplit.map _).nodup_iff.mpr h.slots
  rw [List.map_append, List.nodup_append] at hslots
  obtain ⟨hlslots, hislots, hapart⟩ := hslots
  have hdomain : ∀ x ∈ items, x.domain = it.domain := fun x hx => by
    rw [← hitems] at hx
    obtain rfl | hx := List.mem_cons.mp hx
    · rfl
    · exact of_decide_eq_true (List.mem_filter.mp hx).2
  have hperm : (s.setRecovery r).recovery.strandedItems.Perm (items ++ s.recovery.strandedItems) := by
    rw [strandedItems_eq, strandedItems_eq, State.setRecovery_recovery, hos]
    exact strandOutcomes_items hislots fun x hx => (h.listed x (hmem x (.inr hx))).1
  have hfailed : ∀ d, (d = it.domain ∨ s.recovery.failedDomains[d] = true) → r.failedDomains[d] = true := fun d hd => by
    rw [hf]
    simp only [Fin.getElem_fin, Vector.getElem_set]
    split
    next => rfl
    next hne => exact hd.resolve_left fun hd => hne (congrArg Fin.val hd.symm)
  refine ⟨?_, hlslots, fun x hx => ⟨?_, (h.listed x (hmem x (.inl hx))).2⟩, fun i x hi => ?_⟩
  · refine ((((hperm.append_left r.list).trans ?_).map RecItem.key).nodup_iff).mpr h.records
    rw [← List.append_assoc]
    exact hsplit.append_right _
  · rw [State.setRecovery_recovery, hos, strandOutcomes_other fun y hy hyx => ?_]
    · exact (h.listed x (hmem x (.inl hx))).1
    · exact hapart _ (List.mem_map_of_mem hx) _ (List.mem_map_of_mem hy) hyx.symm
  · rw [State.setRecovery_recovery, hos] at hi
    obtain ⟨hx, hslot⟩ | hold := strandOutcomes_stranded hi
    · exact ⟨hslot, (h.listed x (hmem x (.inr hx))).2, hfailed _ (.inl (hdomain x hx))⟩
    · obtain ⟨hslot, hfits, hfail⟩ := h.stranded i x hold
      exact ⟨hslot, hfits, hfailed _ (.inr hfail)⟩

theorem Awaits.congr {s t : State} {l : List RecItem} (h : s.Awaits l) (hr : t.recovery = s.recovery) (hl : t.layout = s.layout) :
    t.Awaits l := by
  have hitem : t.ItemFits = s.ItemFits := by
    funext it
    rw [State.ItemFits, State.ItemFits, State.cfg, State.cfg, hl]
  obtain ⟨h1, h2, h3, h4⟩ := h
  refine ⟨?_, h2, ?_, ?_⟩
  all_goals
    simp only [hr, hitem]
    assumption

/-- RESTORE goes on after an item is settled, whatever is recorded of it. -/
theorem nextRestore_recorded {s : State} {r : Recovery} (h : s.Starting) (hc : r.chosen = s.recovery.chosen)
    (ha : (s.setRecovery r).Awaits r.list) (e : Event) : (nextRestore (record e (s.setRecovery r))).Fits := by
  have hrec : (record e (s.setRecovery r)).recovery = r := by rw [record_eq]; rfl
  refine nextRestore_fits ((h.recovered hc).recorded e) ?_
  rw [hrec]
  exact Awaits.congr ha hrec (by rw [record_eq])

theorem recoveryRestoreTakes_fits {s : State} (h : s.Starting) {it : RecItem} {pos : RestorePos} {back : Bool}
    (hp : s.recovery.pos = .restore it pos back) (hr : s.RecoveryFits) (data : Word) :
    (recoveryRestoreTakes it pos back data s).Fits := by
  have ha := (recoveryFits_restore_iff hp).mp hr
  unfold recoveryRestoreTakes
  split
  next =>
    refine State.Starting.fits (h.recovered (by rfl)) ((recoveryFits_restore_iff (by rfl)).mpr ?_)
    exact ⟨ha.records, ha.slots, ha.listed, ha.stranded⟩
  next =>
    refine nextRestore_fits (h.recovered (by rfl)) ?_
    exact awaits_settled ha (.inl rfl) rfl rfl rfl
  next =>
    unfold recoveryTagFault
    exact nextRestore_recorded h (by rfl) (awaits_settled ha (.inr rfl) (by rfl) (by rfl) (by rfl)) _
  next =>
    unfold recoveryRecordFault
    exact nextRestore_recorded h (by rfl) (awaits_stranded ha (by rfl) (by rfl) (by rfl)) _

/-! ### SCAN -/

theorem scanNext_fits {s : State} (h : s.Starting) (hs : s.Scans) : (scanNext s).Fits := by
  obtain ⟨ha, hn, hnone⟩ := hs
  unfold scanNext
  split
  next =>
    refine State.Starting.fits (h.recovered (by rfl)) ((recoveryFits_scan_iff (p := .tag) (by rfl)).mpr ⟨⟨?_, hn, hnone⟩, trivial⟩)
    exact ⟨ha.records, ha.slots, ha.listed, ha.stranded⟩
  next =>
    refine nextRestore_fits (h.recovered (by rfl)) ?_
    exact ⟨ha.records, ha.slots, ha.listed, ha.stranded⟩

/-- SCAN goes on in the slot in judgement. -/
theorem scanMoves_fits {s : State} (h : s.Starting) (hs : s.Scans) {p : ScanPos} {b : Bool} (hp : s.ScanFits p) :
    (s.setRecovery { s.recovery with pos := .scan p b }).Fits := by
  obtain ⟨ha, hn, hnone⟩ := hs
  refine State.Starting.fits (h.recovered (by rfl)) ((recoveryFits_scan_iff (by rfl)).mpr ⟨⟨?_, hn, hnone⟩, hp⟩)
  exact ⟨ha.records, ha.slots, ha.listed, ha.stranded⟩

/-- The recovery record after the slot in judgement is settled with an outcome (R122). -/
def Recovery.judged (r : Recovery) (o : SlotOutcome) : Recovery :=
  { r with outcomes := r.outcomes ++ [o], scanPos := r.scanPos + 1 }

theorem judged_stranded (r : Recovery) {o : SlotOutcome} (ho : o.item = none) :
    (r.judged o).strandedItems = r.strandedItems := by
  rw [strandedItems_eq, strandedItems_eq]
  show (r.outcomes ++ [o]).filterMap SlotOutcome.item = _
  rw [List.filterMap_append, List.filterMap_cons, ho, List.filterMap_nil, List.append_nil]

/-- SCAN goes on after the slot in judgement is settled without being listed. -/
theorem scanSettles_fits {s : State} (h : s.Starting) (hs : s.Scans) {o : SlotOutcome} (ho : o.item = none) :
    (scanSettles o s).Fits := by
  obtain ⟨ha, hn, hnone⟩ := hs
  have hstranded := judged_stranded s.recovery ho
  refine scanNext_fits (h.recovered (by rfl)) ⟨⟨?_, ha.slots, fun x hx => ?_, fun i x hi => ?_⟩, ?_, hstranded.trans hnone⟩
  · show ((s.recovery.list ++ (s.recovery.judged o).strandedItems).map RecItem.key).Nodup
    rw [hstranded]
    exact ha.records
  · obtain ⟨hx, hfits⟩ := ha.listed x hx
    exact ⟨(List.getElem?_append_left (List.getElem?_eq_some_iff.mp hx).1).trans hx, hfits⟩
  · have hmem : x ∈ (s.recovery.judged o).strandedItems := mem_strandedItems.mpr ⟨i, hi⟩
    rw [hstranded, hnone] at hmem
    exact absurd hmem List.not_mem_nil
  · show (s.recovery.outcomes ++ [o]).length = s.recovery.scanPos + 1
    rw [List.length_append, hn]
    rfl

/-- SCAN goes on after the slot in judgement is listed (R122). -/
theorem scanLists_fits {s : State} (h : s.Starting) (hs : s.Scans) {it : RecItem} (hslot : it.slot = s.recovery.scanPos)
    (hfits : s.ItemFits it) (hnew : it.key ∉ s.recovery.list.map RecItem.key) :
    (scanSettles .listed (s.setRecovery { s.recovery with list := s.recovery.list ++ [it] })).Fits := by
  obtain ⟨ha, hn, hnone⟩ := hs
  have hstranded := judged_stranded s.recovery (o := .listed) rfl
  have hless : ∀ x ∈ s.recovery.list, x.slot < s.recovery.outcomes.length := fun x hx =>
    (List.getElem?_eq_some_iff.mp (ha.listed x hx).1).1
  refine scanNext_fits ((h.recovered (r := { s.recovery with list := s.recovery.list ++ [it] }) rfl).recovered (by rfl))
    ⟨⟨?_, ?_, fun x hx => ?_, fun i x hi => ?_⟩, ?_, hstranded.trans hnone⟩
  · show ((s.recovery.list ++ [it] ++ (s.recovery.judged .listed).strandedItems).map RecItem.key).Nodup
    have hrecords := ha.records
    rw [hnone, List.append_nil] at hrecords
    rw [hstranded, hnone, List.append_nil, List.map_append, List.nodup_append]
    refine ⟨hrecords, List.nodup_singleton _, fun a hal b hb hab => hnew ?_⟩
    rw [← List.mem_singleton.mp hb, ← hab]
    exact hal
  · show ((s.recovery.list ++ [it]).map (·.slot)).Nodup
    rw [List.map_append, List.nodup_append]
    refine ⟨ha.slots, List.nodup_singleton _, fun a hal b hb hab => ?_⟩
    obtain ⟨x, hx, rfl⟩ := List.mem_map.mp hal
    have hxs : x.slot = it.slot := hab.trans (List.mem_singleton.mp hb)
    have hlt := hless x hx
    rw [hxs, hslot, hn] at hlt
    exact Nat.lt_irrefl _ hlt
  · obtain hx | hx := List.mem_append.mp hx
    · obtain ⟨hxo, hfits⟩ := ha.listed x hx
      exact ⟨(List.getElem?_append_left (hless x hx)).trans hxo, hfits⟩
    · obtain rfl := List.mem_singleton.mp hx
      refine ⟨?_, hfits⟩
      show (s.recovery.outcomes ++ [SlotOutcome.listed])[x.slot]? = some .listed
      rw [hslot, ← hn, List.getElem?_concat_length]
  · have hmem : x ∈ (s.recovery.judged .listed).strandedItems := mem_strandedItems.mpr ⟨i, hi⟩
    rw [hstranded, hnone] at hmem
    exact absurd hmem List.not_mem_nil
  · show (s.recovery.outcomes ++ [SlotOutcome.listed]).length = s.recovery.scanPos + 1
    rw [List.length_append, hn]
    rfl

theorem scanClear_fits {s : State} (h : s.Starting) (hs : s.Scans) (j : Judgement) : (scanClear j s).Fits :=
  scanMoves_fits h hs trivial

theorem scanJudge_fits {s : State} (h : s.Starting) (hs : s.Scans) {d : Fin 4} {loc : Word} (he : (s.cfg d).enabled = true)
    (hd : (s.layout.regions[locatorRegion loc]).domain = d) (epoch chk sum : Word) : (scanJudge d epoch loc chk sum s).Fits := by
  unfold scanJudge
  split
  next => exact scanClear_fits h hs _
  next =>
    split
    next => exact scanClear_fits h hs _
    next =>
      split
      next hl =>
        refine scanLists_fits h hs rfl ⟨he, hd⟩ fun hm => ?_
        obtain ⟨x, hx, hkey⟩ := List.mem_map.mp hm
        have hany := hl.2
        unfold Recovery.lists at hany
        rw [List.any_eq_false] at hany
        refine hany x hx ?_
        obtain ⟨hr, hn⟩ := Prod.mk.inj hkey
        rw [Bool.and_eq_true, decide_eq_true_eq, decide_eq_true_eq]
        exact ⟨hr, hn⟩
      next => exact scanClear_fits h hs _

/-- A counted slot settled (R122, R123). -/
theorem scans_counted {s : State} (hs : s.Scans) (c : Counts) : (s.setRecovery { s.recovery with counts := c }).Scans :=
  ⟨⟨hs.awaits.records, hs.awaits.slots, hs.awaits.listed, hs.awaits.stranded⟩, hs.judged, hs.none⟩

theorem Scans.congr {s t : State} (h : s.Scans) (hr : t.recovery = s.recovery) (hl : t.layout = s.layout) : t.Scans := by
  obtain ⟨ha, hn, hnone⟩ := h
  refine ⟨?_, by rw [hr]; exact hn, by rw [hr]; exact hnone⟩
  rw [hr]
  exact Awaits.congr ha hr hl

theorem scanTakes_fits {s : State} (h : s.Starting) {pos : ScanPos} {back : Bool} (hp : s.recovery.pos = .scan pos back)
    (hr : s.RecoveryFits) (data : Word) : (scanTakes pos back data s).Fits := by
  obtain ⟨hs, hfits⟩ := (recoveryFits_scan_iff hp).mp hr
  have hcleared : ∀ j, (scanCleared j s).Fits := fun j =>
    scanSettles_fits (h.recovered (by rfl)) (scans_counted hs (s.recovery.counts.add j)) rfl
  unfold scanTakes
  split
  next =>
    split
    next => exact scanSettles_fits h hs rfl
    next =>
      split
      next => exact scanClear_fits h hs _
      next d _ =>
        split
        next he => exact scanMoves_fits h hs he
        next => exact scanClear_fits h hs _
  next d => exact scanMoves_fits h hs hfits
  next d epoch =>
    split
    next hl => exact scanMoves_fits h hs ⟨hfits, ((locatorValid_iff s d data).mp hl).2.2.1⟩
    next => exact scanClear_fits h hs _
  next d epoch loc => exact scanMoves_fits h hs hfits
  next d epoch loc chk k sum =>
    split
    next => exact scanMoves_fits h hs hfits
    next => exact scanJudge_fits h hs hfits.1 hfits.2 _ _ _
  next j =>
    split
    next =>
      split
      next => exact hcleared j
      next =>
        refine scanSettles_fits ((h.recovered (by rfl)).recorded _) (Scans.congr (scans_counted hs ?_) ?_ ?_) rfl
        · exact { s.recovery.counts.add j with bad := (s.recovery.counts.add j).bad + 1 }
        · rw [record_eq]
        · rw [record_eq]
    next =>
      split
      next => exact scanMoves_fits h hs trivial
      next => exact hcleared j

end Sys2Proof.Machine
end

section
/-! LOAD, and the recovery's word in STARTING (R112, R120, R121, R127). -/

namespace Sys2Proof.Machine

/-- Nothing is listed and nothing judged before SCAN. -/
structure State.Loads (s : State) : Prop where
  list : s.recovery.list = []
  outcomes : s.recovery.outcomes = []

theorem State.Loads.awaits {s : State} (h : s.Loads) : s.Awaits s.recovery.list := by
  have hnone : s.recovery.strandedItems = [] := by rw [strandedItems_eq, h.outcomes]; rfl
  refine ⟨?_, ?_, ?_, fun i it hi => ?_⟩
  · rw [h.list, hnone]
    exact .nil
  · rw [h.list]
    exact .nil
  · rw [h.list]
    exact fun it hit => absurd hit List.not_mem_nil
  · rw [h.outcomes] at hi
    cases hi

/-- STARTING ends in UNCONFIGURED (R127). -/
theorem endUnconfigured_fits {s : State} (h : s.Starting) : (endUnconfigured s).Fits := by
  rw [endUnconfigured_eq]
  have hcore : s.unconfiguredStart.CoreFits := (coreFits_of_discarded h.work h.copy h.commit).congr rfl rfl rfl rfl rfl rfl rfl rfl
  have hruns : (endHold s.unconfiguredStart).Runs :=
    endHold_runs hcore ⟨(journalHit_congr rfl).trans h.hit, h.copy, h.commit⟩ (h.layouts.congr rfl rfl rfl)
  refine hruns.fits ?_
  rw [(endHold_frame s.unconfiguredStart).mode]
  exact .inr (.inr rfl)

/-- The chosen layout becomes the active one and SCAN begins (R118, R121). -/
theorem loadAdopts_fits {s : State} (h : s.Starting) (hload : s.Loads) {c : Chosen} (hc : s.recovery.chosen = some c) :
    (loadAdopts c s).Fits := by
  unfold loadAdopts
  rw [unlessFrozen_of_starting h.mode]
  obtain ⟨-, -, hstaging, hlog, hchosen⟩ := h.layouts
  obtain ⟨hin, hlogin⟩ := hchosen c hc
  have hloads := hload.awaits
  refine scanNext_fits ⟨h.mode, ⟨h.work.pool, h.work.free, h.work.retire, h.work.index, h.work.domain⟩, h.copy, h.commit, h.hit,
    ⟨hin, .inr hlogin, hstaging, hlog, hchosen⟩⟩ ?_
  have hnone : s.recovery.strandedItems = [] := by rw [strandedItems_eq, hload.outcomes]; rfl
  refine ⟨⟨hloads.records, hloads.slots, ?_, ?_⟩, ?_, hnone⟩
  · show ∀ it ∈ s.recovery.list, _
    rw [hload.list]
    exact fun it hit => absurd hit List.not_mem_nil
  · show ∀ (i : Nat) it, s.recovery.outcomes[i]? = some (.stranded it) → _
    rw [hload.outcomes]
    intro i it hi
    cases hi
  · show s.recovery.outcomes.length = 0
    rw [hload.outcomes]
    rfl

/-- The choice is made (R121). -/
theorem loadChooses_fits {s : State} (h : s.Starting) (hload : s.Loads) (ws : List Word) : (loadChooses ws s).Fits := by
  unfold loadChooses
  split
  next =>
    rw [unlessFrozen_of_starting h.mode]
    exact endUnconfigured_fits h
  next c hchoose =>
    have hc : c.layout.InRange ∧ c.layout.LogInRange := by
      obtain ⟨q, hq⟩ | ⟨q, hq⟩ := chooseCopy_cases hchoose <;> exact readCopy_inRange hq
    have hchosen : ∀ r : Recovery, r.chosen = some c → (s.setRecovery r).Starting := fun r hr =>
      ⟨h.mode, ⟨h.work.pool, h.work.free, h.work.retire, h.work.index, h.work.domain⟩, h.copy, h.commit, h.hit,
        (setChosen_recoveryFrame s r c hr hc).layouts h.layouts⟩
    split
    next =>
      have hset := hchosen { s.recovery with chosen := some c } rfl
      exact loadAdopts_fits hset ⟨hload.list, hload.outcomes⟩ (by rfl)
    next ds _ =>
      refine State.Starting.fits (hchosen _ (by rfl)) ((recoveryFits_load_iff ?_ ?_).mpr ⟨hload.list, hload.outcomes⟩)
      · exact fun _ _ _ hp => RecPos.noConfusion hp
      · exact fun _ _ hp => RecPos.noConfusion hp

theorem loadCopyTakes_fits {s : State} (h : s.Starting) (hload : s.Loads) (ws : List Word) (data : Word) :
    (loadCopyTakes ws data s).Fits := by
  unfold loadCopyTakes
  split
  next =>
    refine State.Starting.fits (h.recovered (by rfl)) ((recoveryFits_load_iff ?_ ?_).mpr ⟨hload.list, hload.outcomes⟩)
    · exact fun _ _ _ hp => RecPos.noConfusion hp
    · exact fun _ _ hp => RecPos.noConfusion hp
  next => exact loadChooses_fits h hload _

theorem loadEpochTakes_fits {s : State} (h : s.Starting) (hload : s.Loads) (hr : s.RecoveryFits) (ds : List (Fin 4)) (data : Word) :
    (loadEpochTakes ds data s).Fits := by
  unfold loadEpochTakes
  split
  next => exact h.fits hr
  next d rest =>
    have hfits : (s.setRecovery { s.recovery with epochs := s.recovery.epochs.set d data, pos := .epochs rest }).Fits := by
      refine State.Starting.fits (h.recovered (by rfl)) ((recoveryFits_load_iff ?_ ?_).mpr ⟨hload.list, hload.outcomes⟩)
      · exact fun _ _ _ hp => RecPos.noConfusion hp
      · exact fun _ _ hp => RecPos.noConfusion hp
    dsimp only
    split
    next c hc =>
      have hset : (s.setRecovery { s.recovery with epochs := s.recovery.epochs.set d data, pos := .epochs [] }).Starting :=
        h.recovered (by rfl)
      exact loadAdopts_fits hset ⟨hload.list, hload.outcomes⟩ (by exact hc)
    next => exact hfits

/-- The recovery's word in STARTING. -/
theorem recoveryTakes_fits {s : State} (h : s.Fits) (hm : s.mode = .starting) (hl : s.LayoutsInRange) (data : Word) :
    (recoveryTakes data s).Fits := by
  obtain ⟨hstart, hr⟩ := h.start hm hl
  have hloads : (∀ it p b, s.recovery.pos ≠ .restore it p b) → (∀ p b, s.recovery.pos ≠ .scan p b) → s.Loads := fun hnr hns => by
    obtain ⟨hlist, hos⟩ := (recoveryFits_load_iff hnr hns).mp hr
    exact ⟨hlist, hos⟩
  unfold recoveryTakes
  split
  next => exact h
  next ws hp =>
    refine loadCopyTakes_fits hstart (hloads ?_ ?_) ws data
    · exact fun _ _ _ h => by rw [hp] at h; cases h
    · exact fun _ _ h => by rw [hp] at h; cases h
  next ds hp =>
    refine loadEpochTakes_fits hstart (hloads ?_ ?_) hr ds data
    · exact fun _ _ _ h => by rw [hp] at h; cases h
    · exact fun _ _ h => by rw [hp] at h; cases h
  next p b hp => exact scanTakes_fits hstart hp hr data
  next it p b hp => exact recoveryRestoreTakes_fits hstart hp hr data

end Sys2Proof.Machine
end

section
/-! Entries into STARTING and FROZEN, the install, and a finished access handed to its claimant, keep the part fitting together
(R70, R103, R104, R113, R118, R130, R159 to R164). -/

namespace Sys2Proof.Machine

/-! ### Entries -/

/-- The Port of an entry into STARTING or FROZEN holds no write in decision (R70). -/
theorem journalHit_stopped {s t : State} (h : t.port = stoppedPort s) : t.journalHit = none := by
  unfold State.journalHit
  rw [if_neg]
  rw [h]
  unfold stoppedPort
  rintro ⟨hst, hd⟩
  split at hst
  next hm =>
    split at hst
    next => rw [hm] at hst; cases hst
    next => cases hst
  next hm =>
    rw [hm] at hd
    cases hd
  next hne => exact hne hst

theorem journalHit_vacantPort {t : State} (h : t.port = .vacantPort) : t.journalHit = none :=
  journalHit_none (by rw [h]; exact PortState.noConfusion)

/-- A state that STARTING has just been entered in. -/
theorem entered_fits {t : State} {k : StartKind} {p : Phase} {v : Vector Bool 4} (hm : t.mode = .starting) (hw : t.Discarded)
    (hcopy : t.copy = none) (hcommit : t.commit = none) (hhit : t.journalHit = none) (hl : t.LayoutsInRange)
    (hr : t.recovery = .entered k p v) : t.Fits :=
  State.Starting.fits ⟨hm, hw, hcopy, hcommit, hhit, hl⟩ (.of_entered hr)

theorem enterStarting_fits (k : StartKind) {s : State} (hl : s.LayoutsInRange) : (enterStarting k s).Fits :=
  entered_fits rfl ⟨rfl, rfl, rfl, rfl, State.dom_replicate_discarded rfl⟩ rfl rfl (journalHit_stopped rfl)
    ((enterStarting_keepsRanges k s).layouts hl) rfl

/-- FROZEN holds no write in decision, and its working state fits. -/
theorem frozen_fits {t : State} (hm : t.mode = .frozen) (h : t.CoreFits) (hhit : t.journalHit = none) : t.Fits where
  core := h
  modes := {
    port := fun hf => absurd hm hf
    frozen := fun _ => hhit
    quiet := fun hi => by rw [hm] at hi; cases hi
    starting := fun hs => by rw [hm] at hs; cases hs }

theorem enterFrozen_fits {s : State} (h : s.CoreFits) : (enterFrozen s).Fits := by
  have hdom : ∀ d, (enterFrozen s).dom d = { s.dom d with timer := 0 } := fun d => Vector.getElem_map ..
  refine frozen_fits rfl ⟨?_, fun d => ?_, fun c hc => ?_, h.alone⟩ (journalHit_stopped rfl)
  · refine h.pool.of_held (fun _ => ⟨rfl, rfl, rfl, .inl rfl⟩) rfl rfl rfl rfl (fun d => ?_) h.pool.copy
    rw [hdom]
  · rw [hdom]
    exact (h.domains d).congr rfl rfl rfl rfl fun hc => ((h.domains d).committing hc).1
  · rw [hdom]
    exact h.commit c hc

/-! ### Modes without streams -/

/-- Neither copy, commit, retire nor restore has work. -/
structure State.Still (s : State) : Prop where
  copy : s.copy = none
  commit : s.commit = none
  retire : s.retireQueue = []
  stream : ∀ d, (s.dom d).stream = none

theorem still_of_quiet {s : State} (h : s.CoreFits) (hq : s.quiet = true) : s.Still := by
  have hquiet := hq
  unfold State.quiet at hq
  rw [Bool.and_eq_true, List.all_eq_true, List.all_eq_true] at hq
  obtain ⟨hd, hp⟩ := hq
  have hslot : ∀ i, (s.slot i).state = .free ∨ (s.slot i).state = .bad := by
    intro i
    by_cases hi : i < s.pool.length
    · have hmem : s.slot i ∈ s.pool := by
        unfold State.slot
        rw [List.getD_eq_getElem _ _ hi]
        exact List.getElem_mem hi
      have he := hp _ hmem
      rw [Bool.or_eq_true, decide_eq_true_eq, decide_eq_true_eq] at he
      exact he
    · exact .inr (by rw [slot_of_le (Nat.not_lt.mp hi)]; rfl)
  refine ⟨?_, ?_, ?_, fun d => ?_⟩
  · by_contra hc
    obtain ⟨c, hc⟩ := Option.ne_none_iff_exists'.mp hc
    have hs := hslot c.slot
    rw [h.pool.copy c hc] at hs
    obtain hs | hs := hs <;> cases hs
  · by_contra hc
    obtain ⟨c, hc⟩ := Option.ne_none_iff_exists'.mp hc
    exact committing_not_quiet (h.commit c hc) hquiet
  · refine List.eq_nil_iff_forall_not_mem.mpr fun i hi => ?_
    rw [h.pool.retire.2] at hi
    have hs := hslot i
    rw [hi] at hs
    obtain hs | hs := hs <;> cases hs
  · by_contra hst
    have hrolling := (h.domains d).stream.mp (Option.isSome_iff_ne_none.mpr hst)
    have hquietd := hd d (mem_domainIndices d)
    rw [hrolling] at hquietd
    cases hquietd

theorem State.Fits.still {s : State} (h : s.Fits) (hm : s.mode = .installing ∨ s.mode = .starting) : s.Still := by
  obtain hm | hm := hm
  · exact still_of_quiet h.core (h.modes.quiet hm)
  · obtain ⟨hp, hcommit, -, hd, -⟩ := h.modes.starting hm
    obtain ⟨hw, hcopy⟩ := discarded_of_coreFits h.core hp hd
    exact ⟨hcopy, hcommit, hw.retire, fun d => by rw [hd]; rfl⟩

/-! ### The install -/

theorem adopted_dom (s : State) (st : InstallStream) (d : Fin 4) : (s.adopted st).dom d = adoptedDomain s st d := dom_ofFn s _ d

theorem adopted_coreFits {s : State} (h : s.Still) (st : InstallStream) : (s.adopted st).CoreFits := by
  have hslot : ∀ i, (s.adopted st).slot i = if i < s.staging.geometry.slots then .freeEntry else .badEntry := by
    intro i
    show (List.replicate s.staging.geometry.slots PoolEntry.freeEntry).getD i .badEntry = _
    rw [List.getD_eq_getElem?_getD, List.getElem?_replicate]
    split <;> rfl
  have hstate : ∀ i, (s.adopted st).slot i = .freeEntry ∨ (s.adopted st).slot i = .badEntry := fun i => by
    rw [hslot]
    split
    next => exact .inl rfl
    next => exact .inr rfl
  have hno : ∀ i, ¬ ((s.adopted st).slot i).state.holdsRecord = true := fun i hh => by
    obtain he | he := hstate i <;> rw [he] at hh <;> cases hh
  have hdomain : ∀ d, (adoptedDomain s st d).members = [] ∧ (adoptedDomain s st d).restoreList = []
      ∧ (adoptedDomain s st d).stream = none ∧ (adoptedDomain s st d).backlog = 0
      ∧ (adoptedDomain s st d).state ≠ .rolling ∧ (adoptedDomain s st d).state ≠ .committing := by
    intro d
    unfold adoptedDomain
    split <;> exact ⟨rfl, rfl, rfl, rfl, UpdateState.noConfusion, UpdateState.noConfusion⟩
  have hcopy : (s.adopted st).copy = none := h.copy
  have hcommit : (s.adopted st).commit = none := h.commit
  refine ⟨⟨⟨List.nodup_range, fun i => ?_⟩, ⟨.nil, fun i => ⟨fun hm => absurd hm List.not_mem_nil, fun hs => ?_⟩⟩, fun d => ?_,
    .nil, .nil, fun e he => absurd he List.not_mem_nil, fun i hi => absurd hi (hno i), fun i hi => absurd hi (hno i),
    fun c hc => ?_⟩, fun d => ?_, fun c hc => ?_, fun hc => absurd hcommit hc⟩
  · show i ∈ List.range s.staging.geometry.slots ↔ _
    rw [List.mem_range, hslot]
    split
    next hi => exact ⟨fun _ => rfl, fun _ => hi⟩
    next hi => exact ⟨fun hlt => absurd hlt hi, fun hs => SlotState.noConfusion hs⟩
  · obtain he | he := hstate i <;> rw [he] at hs <;> cases hs
  · obtain ⟨-, -, -, hb, -⟩ := hdomain d
    rw [adopted_dom, hb]
    rfl
  · rw [hcopy] at hc
    cases hc
  · have hnone : (s.adopted st).owns d = fun _ => none := funext fun i => owns_eq_none fun hh => absurd hh (hno i)
    obtain ⟨hm, hl, hst, -, hr, hc⟩ := hdomain d
    rw [hnone, adopted_dom]
    exact .of_none hm hl hst hr hc
  · rw [hcommit] at hc
    cases hc

/-- A quiet part's write in decision waits for nothing that the working state gives. -/
theorem State.PortFits.quietStage {s : State} (hp : s.PortFits) (hq : s.quiet = true) (hs : s.Still) {k : Hit}
    (hk : s.journalHit = some k) :
    s.port.stage ≠ .slot ∧ s.port.stage ≠ .copy ∧ s.port.stage ≠ .backlog ∧ s.port.stage ≠ .commitStore := by
  obtain ⟨hsl, hcp, hb, hcs⟩ := hp.held k hk
  have hquiet := hq
  unfold State.quiet at hquiet
  rw [Bool.and_eq_true, List.all_eq_true, List.all_eq_true] at hquiet
  refine ⟨fun hg => ?_, fun hg => ?_, fun hg => ?_, fun hg => committing_not_quiet (hcs hg) hq⟩
  · obtain ⟨-, -, hcoming, -⟩ := hsl hg
    obtain ⟨e, he, hst⟩ := slotComing_iff.mp hcoming
    have hfree := hquiet.2 e he
    obtain hst | hst := hst <;> rw [hst] at hfree <;> cases hfree
  · obtain ⟨c, hc, -⟩ := hcp hg
    rw [hs.copy] at hc
    cases hc
  · have hd := hquiet.1 k.domain (mem_domainIndices _)
    rw [hb hg] at hd
    cases hd

theorem adopt_fits {s : State} (hs : s.Still) (hp : s.PortFits) (hq : s.quiet = true) (hl : s.LayoutsInRange)
    {st : InstallStream} (hr : st.returnMode = .guarding ∨ st.returnMode = .bypass) : (adopt st s).Fits := by
  have hcore := adopted_coreFits hs st
  have hhit : (s.adopted st).journalHit = s.journalHit := journalHit_congr rfl
  have hmode : (endHold (s.adopted st)).mode.Works := by
    rw [(endHold_frame (s.adopted st)).mode]
    exact hr.imp_right .inl
  rw [adopt_eq]
  refine State.Runs.fits ?_ hmode
  cases hk : s.journalHit with
  | none => exact endHold_runs hcore ⟨hhit.trans hk, hs.copy, hs.commit⟩ ((adopted_keepsRanges s st).layouts hl)
  | some k =>
    obtain ⟨hsl, hcp, hb, hcs⟩ := hp.quietStage hq hs hk
    obtain ⟨hst, hdisp, -⟩ := journalHit_eq_some_iff.mp hk
    have hstays : endHold (s.adopted st) = s.adopted st := by
      unfold endHold
      rw [show (s.adopted st).port = s.port from rfl, hst, hdisp]
      rfl
    rw [hstays]
    refine ⟨hcore, fun hc => absurd hs.copy hc, fun hc => absurd hs.commit hc, fun _ _ => ?_⟩
    exact ⟨fun hg => absurd hg hsl, fun hg => absurd hg hcp, fun hg => absurd hg hb, fun hg => absurd hg hcs⟩

/-- The install's word in INSTALLING (R160 to R164). -/
theorem installTakes_fits {s : State} (h : s.Fits) (hm : s.mode = .installing) (hl : s.LayoutsInRange)
    (hr : ∀ st, s.install = some st → st.returnMode = .guarding ∨ st.returnMode = .bypass) (data : Word) :
    (installTakes data s).Fits := by
  obtain he | ⟨st, st', hst, he, hret⟩ | ⟨st, st', hst, he, hret⟩ | ⟨st, hst, he⟩ := installTakes_cases s data <;> rw [he]
  · exact h
  · exact h.same_port ⟨rfl, rfl, rfl, rfl, rfl, rfl, rfl, rfl, rfl⟩ rfl rfl
  · exact adopt_fits (h.still (.inl hm)) (h.modes.port (by rw [hm]; exact Mode.noConfusion)) (h.modes.quiet hm) hl
      (hret ▸ hr st hst)
  · rw [installFault_eq]
    exact enterStarting_fits _ ((installFailed_keepsRanges s st).layouts hl)

/-! ### A finished access -/

/-- In FROZEN the word goes to its claimant's own record (R104, R130). -/
theorem deliverFrozen_fits {s : State} (h : s.Fits) (hf : s.mode = .frozen) (c : Claimant) (data : Word) :
    (deliverFrozen c data s).Fits := by
  have hhit := h.modes.frozen hf
  have hsame : ∀ t : State, SameWork s t → t.port = s.port → t.Fits := fun t hw hport =>
    frozen_fits (hw.mode.trans hf) (hw.coreFits h.core) ((journalHit_congr hport).trans hhit)
  cases c with
  | host => exact hostTakes_fits h data
  | copy =>
    unfold deliverFrozen
    dsimp only
    split
    next => exact h
    next k hk =>
      split
      next k' hn => exact frozen_fits hf (copyMoves_coreFits h.core hk (copyNext_slot hn)) hhit
      next => exact h
  | commit =>
    unfold deliverFrozen
    dsimp only
    split
    next => exact h
    next k hk =>
      split
      next => exact frozen_fits hf (commitMoves_coreFits h.core hk rfl) hhit
      next => exact h
  | restore d =>
    unfold deliverFrozen
    dsimp only
    split
    next => exact h
    next st hst =>
      split
      next => exact h
      next =>
        split
        next => exact frozen_fits hf (restoreMoves_coreFits h.core hst rfl) hhit
        next => exact h
  | install =>
    obtain he | ⟨st, st', -, he, -⟩ := deliverFrozen_install_cases s data <;> rw [he]
    · exact h
    · exact hsame _ ⟨rfl, rfl, rfl, rfl, rfl, rfl, rfl, rfl, rfl⟩ rfl
  | retire =>
    unfold deliverFrozen
    dsimp only
    split
    next => exact hsame _ ⟨rfl, rfl, rfl, rfl, rfl, rfl, rfl, rfl, rfl⟩ rfl
    next => exact h
  | recovery =>
    obtain ⟨r, es, he⟩ := recoveryTakes_frozen s data hf
    unfold deliverFrozen
    dsimp only
    rw [he]
    exact hsame _ ⟨rfl, rfl, rfl, rfl, rfl, rfl, rfl, rfl, rfl⟩ rfl

/-- A runtime stream's word: its work in the modes that work, nothing in STARTING and INSTALLING. -/
theorem stream_fits {s t : State} (h : s.Fits) (hf : s.mode ≠ .frozen) (hmode : t.mode = s.mode) (hruns : s.Runs → t.Runs)
    (hstill : s.Still → t = s) : t.Fits := by
  obtain hw | hi | hs | hz := s.mode.works_or
  · exact (hruns (h.runs hf)).fits (by rw [hmode]; exact hw)
  · rw [hstill (h.still (.inl hi))]
    exact h
  · rw [hstill (h.still (.inr hs))]
    exact h
  · exact absurd hz hf

theorem handOver_fits {s : State} (h : s.Fits) (hl : s.LayoutsInRange) (a : Access) (data : Word)
    (hr : a.orphan = false → a.claimant = .recovery → s.mode = .starting ∨ s.mode = .frozen)
    (hi : a.orphan = false → a.claimant = .install → s.mode = .installing ∨ s.mode = .frozen)
    (hret : ∀ st, s.install = some st → st.returnMode = .guarding ∨ st.returnMode = .bypass) : (handOver a data s).Fits := by
  unfold handOver
  split
  next => exact h
  next ho =>
    have ho : a.orphan = false := Bool.eq_false_iff.mpr ho
    split
    next hf => exact deliverFrozen_fits h hf _ _
    next hf =>
      cases hc : a.claimant with
      | host => exact hostTakes_fits h data
      | copy =>
        refine stream_fits h hf (copyTakes_frame s data).mode (fun hruns => copyTakes_runs hruns data) fun hstill => ?_
        show copyTakes data s = s
        unfold copyTakes
        rw [hstill.copy]
      | commit =>
        refine stream_fits h hf (commitTakes_frame s data).mode (fun hruns => commitTakes_runs hruns data) fun hstill => ?_
        show commitTakes data s = s
        unfold commitTakes
        rw [hstill.commit]
      | restore d =>
        refine stream_fits h hf (restoreTakes_frame s d data).mode (fun hruns => restoreTakes_runs hruns hl d data) fun hstill => ?_
        show restoreTakes d data s = s
        unfold restoreTakes
        rw [hstill.stream]
      | retire =>
        refine stream_fits h hf (retireTakes_frame s data).mode (fun hruns => retireTakes_runs hruns hl data) fun hstill => ?_
        show retireTakes data s = s
        unfold retireTakes
        rw [hstill.retire]
      | install => exact installTakes_fits h ((hi ho hc).resolve_right hf) hl hret data
      | recovery => exact recoveryTakes_fits h ((hr ho hc).resolve_right hf) hl data

theorem completeAccess_fits {s : State} (h : s.Fits) (hl : s.LayoutsInRange) (hc : s.ClaimantsFit) {a : Access}
    (ha : s.memPort.access = some a) (f : Option Word) : (completeAccess f a s).Fits := by
  obtain ⟨haccess, hinstall, -⟩ := hc
  have hfinished : (finishAccess f a s).Fits := h.same_port ⟨rfl, rfl, rfl, rfl, rfl, rfl, rfl, rfl, rfl⟩ rfl rfl
  have hhanded := handOver_fits (s := finishAccess f a s) hfinished hl a (accessData f s.memory a)
    (fun ho => (haccess a ha ho).1) (fun ho => (haccess a ha ho).2) fun st hst => (hinstall st hst).2
  exact settleStep_fits hhanded ((handOver_keepsRanges _ _ _).layouts hl) true

end Sys2Proof.Machine
end

section
/-! Every command keeps the working collections in agreement with the pool (R18, R21, R51 to R56). -/

namespace Sys2Proof.Machine

/-! ### Timers, pins and bus cycles -/

/-- The recovery record changes in what its fitting does not look at. -/
theorem State.Fits.setRecovery {s : State} (h : s.Fits) {r : Recovery} (hp : r.pos = s.recovery.pos)
    (ho : r.outcomes = s.recovery.outcomes) (hl : r.list = s.recovery.list) (hf : r.failedDomains = s.recovery.failedDomains)
    (hs : r.scanPos = s.recovery.scanPos) : (s.setRecovery r).Fits := by
  refine h.same ⟨rfl, rfl, rfl, rfl, rfl, rfl, rfl, rfl, rfl⟩ (fun hport _ => ?_) (.inr rfl) fun _ hr => ?_
  · exact hport.congr rfl rfl rfl rfl rfl (fun _ => rfl) id fun _ _ => .inl ⟨rfl, rfl⟩
  · have hu : r.unsettled = s.recovery.unsettled := by
      unfold Recovery.unsettled
      rw [hp, hl]
    have hst : r.strandedItems = s.recovery.strandedItems := by rw [strandedItems_eq, strandedItems_eq, ho]
    obtain ⟨h1, h2, h3, h4, h5⟩ := hr
    refine ⟨?_, ?_, ?_, ?_, ?_⟩
    all_goals simp only [State.setRecovery_recovery, hu, hst, ho, hf, hp, hl, hs]
    all_goals assumption

theorem tickBody_fits {s : State} (h : s.Fits) : (tickBody s).Fits := by
  unfold tickBody
  split
  next =>
    unfold settleTick
    split
    next => exact h
    next => exact h.setRecovery rfl rfl rfl rfl rfl
  next =>
    split
    next hm =>
      refine (tickDomains_runs (h.runs (by rw [hm]; exact Mode.noConfusion))).fits ?_
      rw [(tickDomains_frame s).mode]
      exact .inl hm
    next => exact h

theorem resetFalls_fits {s : State} (h : s.Fits) (hl : s.LayoutsInRange) : (resetFalls s).Fits := by
  obtain ⟨-, he⟩ | ⟨-, -, he⟩ | ⟨-, -, he⟩ | ⟨-, -, -, he⟩ := resetFalls_cases s <;> rw [he]
  · exact h
  · exact h.same_port ⟨rfl, rfl, rfl, rfl, rfl, rfl, rfl, rfl, rfl⟩ rfl rfl
  · exact h.same_port ⟨rfl, rfl, rfl, rfl, rfl, rfl, rfl, rfl, rfl⟩ rfl rfl
  · obtain ⟨hlayout, hlog, -, -, hc⟩ := hl
    exact enterStarting_fits .reset (s := resetClears _) ⟨hlayout, hlog, Layout.cleared_inRange, .inl rfl, hc⟩

theorem resetRises_fits {s : State} (h : s.Fits) (hl : s.LayoutsInRange) : (resetRises s).Fits := by
  obtain ⟨-, he⟩ | ⟨-, he⟩ := resetRises_cases s <;> rw [he]
  · have hreleased : ({ s with resetAsserted := false, resetTaken := false } : State).Fits :=
      h.same_port ⟨rfl, rfl, rfl, rfl, rfl, rfl, rfl, rfl, rfl⟩ rfl rfl
    exact settleStep_fits hreleased hl _
  · exact h

theorem pfwFalls_fits {s : State} (h : s.Fits) : (pfwFalls s).Fits := by
  obtain ⟨-, he⟩ | ⟨-, -, he⟩ | ⟨-, -, he⟩ := pfwFalls_cases s <;> rw [he]
  · exact h
  · have hset : (s.setRecovery { s.recovery with settle := 0 }).Fits := h.setRecovery rfl rfl rfl rfl rfl
    exact hset.same_port ⟨rfl, rfl, rfl, rfl, rfl, rfl, rfl, rfl, rfl⟩ rfl rfl
  · exact enterFrozen_fits (h.core.congr rfl rfl rfl rfl rfl rfl rfl rfl)

theorem pfwRises_fits {s : State} (h : s.Fits) (hl : s.LayoutsInRange) : (pfwRises s).Fits := by
  obtain ⟨-, he⟩ | ⟨-, -, he⟩ | ⟨-, -, -, he⟩ | ⟨-, -, -, he⟩ := pfwRises_cases s <;> rw [he]
  · exact h
  · exact h.same_port ⟨rfl, rfl, rfl, rfl, rfl, rfl, rfl, rfl, rfl⟩ rfl rfl
  · have hreset := (takeReset_keepsRanges { s with pfwAsserted := false }).layouts hl
    obtain ⟨hlayout, hlog, -, -, hc⟩ := hl
    refine settleStep_fits ?_ hreset _
    exact enterStarting_fits .reset (s := resetClears _) ⟨hlayout, hlog, Layout.cleared_inRange, .inl rfl, hc⟩
  · have hranges := (enterStarting_keepsRanges .warm { s with pfwAsserted := false }).layouts hl
    exact settleStep_fits (enterStarting_fits .warm (s := { s with pfwAsserted := false }) hl) hranges _

theorem State.Fits.idle {s : State} (h : s.Fits) (hst : s.port.state ≠ .deciding) (hf : s.mode ≠ .frozen) :
    s.copy = none ∧ s.commit = none := (h.modes.port hf).idle_of_state hst

/-- Only the Port's early end and its waiting cycle change. -/
theorem State.Fits.portMarked {s t : State} (h : s.Fits) (hw : SameWork s t) (hrec : t.recovery = s.recovery)
    (hst : t.port.state = s.port.state) (hd : t.port.disp = s.port.disp) (hc : t.port.cls = s.port.cls)
    (hg : t.port.stage = s.port.stage) : t.Fits := by
  have hhit : t.journalHit = s.journalHit := by rw [State.journalHit, State.journalHit, hst, hd, hc]
  refine h.same hw (fun hp hf => ?_) (.inr hhit) fun _ hr => RecoveryFits.congr hr hrec hw.layout
  have hback : ({ t with port := s.port } : State).PortFits :=
    (h.same_port (t := { t with port := s.port }) ⟨hw.mode, hw.pool, hw.domains, hw.free, hw.retire, hw.index, hw.copy, hw.commit,
      hw.layout⟩ rfl hrec).modes.port hf
  obtain ⟨h1, h2, h3⟩ := hback
  refine ⟨fun hcopy => ?_, fun hcommit => ?_, fun k hk => ?_⟩
  · rw [hst, hg]
    exact h1 hcopy
  · rw [hst, hg]
    exact h2 hcommit
  · rw [hhit] at hk
    unfold State.HeldFits
    rw [hg]
    exact h3 k hk

theorem busCycle_fits {s : State} (h : s.Fits) (hl : s.LayoutsInRange) (b : BusCycle) : (busCycle b s).Fits := by
  unfold busCycle
  split
  next hv => exact settleStep_fits (arrive_fits h hl b hv) ((arrive_frame s b).keepsRanges.layouts hl) _
  next => exact h.portMarked ⟨rfl, rfl, rfl, rfl, rfl, rfl, rfl, rfl, rfl⟩ rfl rfl rfl rfl rfl

theorem vacate_fits {s : State} (h : s.Fits) (hst : s.port.state ≠ .deciding) : (vacate s).Fits :=
  h.same_apart ⟨rfl, rfl, rfl, rfl, rfl, rfl, rfl, rfl, rfl⟩ (journalHit_none PortState.noConfusion) (h.idle hst) rfl

theorem endCycle_fits {s : State} (h : s.Fits) (hl : s.LayoutsInRange) : (endCycle s).Fits := by
  have hmarked : ∀ {t : State}, SameWork s t → t.recovery = s.recovery → t.port.state = s.port.state → t.port.disp = s.port.disp →
      t.port.cls = s.port.cls → t.port.stage = s.port.stage → t.Fits := h.portMarked
  unfold endCycle
  split
  next => exact h
  next hst => exact settleStep_fits (vacate_fits h (by rw [hst]; exact PortState.noConfusion)) hl _
  next hst =>
    split
    next => exact hmarked ⟨rfl, rfl, rfl, rfl, rfl, rfl, rfl, rfl, rfl⟩ rfl rfl rfl rfl rfl
    next => exact settleStep_fits (vacate_fits h (by rw [hst]; exact PortState.noConfusion)) hl _
  next => split <;> exact hmarked ⟨rfl, rfl, rfl, rfl, rfl, rfl, rfl, rfl, rfl⟩ rfl rfl rfl rfl rfl
  next => split <;> exact hmarked ⟨rfl, rfl, rfl, rfl, rfl, rfl, rfl, rfl, rfl⟩ rfl rfl rfl rfl rfl

/-! ### Requests -/

/-- SET_MODE and INSTALL change the mode alone (R150, R159). -/
theorem State.Fits.moded {s t : State} (h : s.Fits) (hb : s.mode.isBusy = false) (hcore : t.CoreFits) (hport : s.PortFits → t.PortFits)
    (hm : t.mode.Works ∨ t.mode = .installing ∧ t.quiet = true) : t.Fits := by
  have hruns : t.Runs := ⟨hcore, hport (h.modes.port fun hf => by rw [hf] at hb; cases hb)⟩
  obtain hw | ⟨hi, hq⟩ := hm
  · exact hruns.fits hw
  · refine ⟨hcore, fun _ => hruns.port, fun hf => ?_, fun _ => hq, fun hs => ?_⟩
    · rw [hi] at hf
      cases hf
    · rw [hi] at hs
      cases hs

/-- An abort of an OPEN update: STARTING and INSTALLING have none, FROZEN holds no write. -/
theorem abortUpdate_keepsFits {s : State} (h : s.Fits) {d : Fin 4} (hs : (s.dom d).state = .opened) (c : Cause) :
    (abortUpdate d c s).Fits := by
  obtain hw | hi | hst | hf := s.mode.works_or
  · obtain ⟨hcore, hport⟩ := abortUpdate_fits h.core (h.modes.port hw.ne.1) c (.inr hs)
    exact State.Runs.fits ⟨hcore, hport⟩ (by rw [(abortUpdate_frame s d c).mode]; exact hw)
  · have hq := h.modes.quiet hi
    unfold State.quiet at hq
    rw [Bool.and_eq_true, List.all_eq_true] at hq
    have hd := hq.1 d (mem_domainIndices d)
    rw [hs] at hd
    cases hd
  · obtain ⟨-, -, -, hd, -⟩ := h.modes.starting hst
    rw [hd] at hs
    cases hs
  · have hhit := h.modes.frozen hf
    have hrolled := startRollback_coreFits (c := c) h.core (.inr hs)
    have hport := startRollback_port d c s
    have hno : (startRollback d c s).holdsWriteOf d = false := by
      rw [Bool.eq_false_iff]
      intro hh
      obtain ⟨k, hk, -⟩ := holdsWriteOf_iff.mp hh
      rw [journalHit_congr hport, hhit] at hk
      cases hk
    have hmode := (abortUpdate_frame s d c).mode.trans hf
    unfold abortUpdate at hmode ⊢
    rw [dropHeld_none _ _ hno] at hmode ⊢
    refine frozen_fits hmode (beginRestore_coreFits hrolled d) ?_
    rw [journalHit_congr (beginRestore_port d _).1, journalHit_congr hport]
    exact hhit

theorem RequestEffect.fits {s t : State} (h : RequestEffect s t) (hs : s.Fits) (hl : s.LayoutsInRange) : t.Fits := by
  have hport : ∀ {t : State}, t.port = s.port → t.copy = s.copy → t.commit = s.commit → t.layout = s.layout →
      t.slotIndex = s.slotIndex → t.pool = s.pool → t.domains = s.domains → s.PortFits → t.PortFits := by
    intro t h1 h2 h3 h4 h5 h6 h7 hp
    have hslot : t.slot = s.slot := by funext i; rw [State.slot, State.slot, h6]
    have hdom : t.dom = s.dom := by funext d; rw [State.dom, State.dom, h7]
    refine hp.congr h1 h2 h3 h4 h5 (fun j => by rw [hslot]) (fun hc => ?_) fun k _ => .inl (by rw [hdom]; exact ⟨rfl, rfl⟩)
    unfold State.slotComing at hc ⊢
    rw [h6]
    exact hc
  cases h with
  | nothing => exact hs
  | posted => exact hs.same_port ⟨rfl, rfl, rfl, rfl, rfl, rfl, rfl, rfl, rfl⟩ rfl rfl
  | staged => exact hs.same_port ⟨rfl, rfl, rfl, rfl, rfl, rfl, rfl, rfl, rfl⟩ rfl rfl
  | taken => exact hs.same_port ⟨rfl, rfl, rfl, rfl, rfl, rfl, rfl, rfl, rfl⟩ rfl rfl
  | masked => exact hs.same_port ⟨rfl, rfl, rfl, rfl, rfl, rfl, rfl, rfl, rfl⟩ rfl rfl
  | resumed tag d hd => exact (resumed_fits hs hd).same_port ⟨rfl, rfl, rfl, rfl, rfl, rfl, rfl, rfl, rfl⟩ rfl rfl
  | moded tag m hm hm' =>
    refine hs.moded ?_ (hs.core.congr rfl rfl rfl rfl rfl rfl rfl rfl) (hport rfl rfl rfl rfl rfl rfl rfl) (.inl (hm'.imp_right .inl))
    obtain hm | hm := hm <;> rw [hm] <;> rfl
  | installed tag hb _ hq =>
    have haccepted : (acceptInstall tag s).Fits := hs.moded hb (hs.core.congr rfl rfl rfl rfl rfl rfl rfl rfl)
      (hport rfl rfl rfl rfl rfl rfl rfl) (.inr ⟨rfl, hq⟩)
    exact settleStep_fits haccepted hl _
  | aborted tag d data ho =>
    have hposted : (post tag 0x20 .ok data s).Fits := hs.same_port ⟨rfl, rfl, rfl, rfl, rfl, rfl, rfl, rfl, rfl⟩ rfl rfl
    have hlayouts := (abortUpdate_frame (post tag 0x20 .ok data s) d .requested).keepsRanges.layouts hl
    exact settleStep_fits (abortUpdate_keepsFits hposted (by exact ho) _) hlayouts _
  | restarted tag =>
    have hranges := (enterStarting_keepsRanges .restart { s with link := { s.link with pendingOp := .restart tag } }).layouts hl
    exact settleStep_fits
      (enterStarting_fits .restart (s := { s with link := { s.link with pendingOp := .restart tag } }) hl) hranges _

/-! ### Every command -/

theorem CommandEffect.fits {c : Instr} {s t : State} (h : CommandEffect c s t) (hs : s.Fits) (hl : s.LayoutsInRange)
    (hc : s.ClaimantsFit) : t.Fits := by
  have hshown : ∀ straps, (showStraps straps s).Fits := fun _ =>
    hs.same_port ⟨rfl, rfl, rfl, rfl, rfl, rfl, rfl, rfl, rfl⟩ rfl rfl
  have hreset : ∀ u : State, u.mode = .starting → u.Discarded → u.copy = none → u.commit = none → u.port = .vacantPort →
      u.layout = .cleared → u.staging = .cleared → u.recovery = State.reset.recovery → u.Fits := fun u hm hw hcopy hcommit hp hlay hst hr =>
    entered_fits hm hw hcopy hcommit (journalHit_vacantPort hp) (LayoutsInRange.of_cleared hl hlay (.inr hst) (by rw [hr]; rfl))
      (hr.trans rfl)
  have hempty : ∀ u : State, u.pool = [] → u.freeQueue = [] → u.retireQueue = [] → u.slotIndex = [] →
      u.domains = Vector.replicate 4 .discarded → u.Discarded := fun u h1 h2 h3 h4 h5 =>
    ⟨h1, h2, h3, h4, State.dom_replicate_discarded h5⟩
  cases h with
  | same => exact hs
  | poweredUp => exact hreset _ rfl (hempty _ rfl rfl rfl rfl rfl) rfl rfl rfl rfl rfl rfl
  | supplyLost => exact hreset _ rfl (hempty _ rfl rfl rfl rfl rfl) rfl rfl rfl rfl rfl rfl
  | ticked => exact settleStep_fits (tickBody_fits hs) ((tickBody_keepsRanges s).layouts hl) _
  | resetFell straps => exact resetFalls_fits (hshown straps) hl
  | resetRose straps => exact resetRises_fits (hshown straps) hl
  | pfwFell straps => exact pfwFalls_fits (hshown straps)
  | pfwRose straps => exact pfwRises_fits (hshown straps) hl
  | cycled b => exact busCycle_fits hs hl b
  | cycleEnded => exact endCycle_fits hs hl
  | completed f a ha => exact completeAccess_fits hs hl hc ha f
  | framed _ h =>
    obtain ⟨l, rfl, -⟩ := h
    exact hs.same_port ⟨rfl, rfl, rfl, rfl, rfl, rfl, rfl, rfl, rfl⟩ rfl rfl
  | requested u _ h ht =>
    obtain ⟨l, rfl, -⟩ := h
    exact ht.fits (hs.same_port ⟨rfl, rfl, rfl, rfl, rfl, rfl, rfl, rfl, rfl⟩ rfl rfl) hl

theorem fits_iff {s : State} : s.Fits ↔ s.CollectionsAgree ∧ s.WorkFits :=
  ⟨fun h => ⟨collectionsAgree_of_coreFits h.core, workFits_of_fits h.core h.modes⟩,
    fun ⟨hc, hw⟩ => ⟨coreFits_of_workFits hc hw, modeFits_of_workFits hw⟩⟩

/-- Settles O13: the two invariants are `State.Fits`, which every effect of a command keeps. -/
theorem collectionsKeepAgreeingWithThePool : Obligations.CollectionsKeepAgreeingWithThePool := by
  intro s t hc hw hl hclaims h
  have hs : s.Fits := fits_iff.mpr ⟨hc, hw⟩
  refine fits_iff.mp ?_
  obtain rfl | ⟨c, rest, -, he⟩ := step_cases h
  · exact hs
  · have hpending : ({ s with pending := rest } : State).Fits :=
      hs.same_port ⟨rfl, rfl, rfl, rfl, rfl, rfl, rfl, rfl, rfl⟩ rfl rfl
    exact (exec_cases c _ t he).fits hpending hl hclaims

end Sys2Proof.Machine
end
